-- ==== Sys2Proof/Word.lean ====
section
/-! DEFINITION. The widths of the engine's values (spec 00_scope.md R8, R10): a Byte, a Word, a command word, the frame
index. Every number of the engine is unsigned (R10, R128). -/

namespace Sys2Proof

/-- A Byte, 0 to 255 (R8 `DATA_W`). -/
abbrev Byte := BitVec 8

/-- A Word, 0 to 65535 (R8 `WORD_W`). -/
abbrev Word := BitVec 16

/-- A command word (R8 `CMD_W`, R82). -/
abbrev CmdWord := BitVec 32

end Sys2Proof
end

