-- ==== Sys2Proof/Config.lean ====
section
/-! DEFINITION. The parameters of one instance of the engine (spec 00_scope.md R8) and the free value of spec
42_handshake.md R150. A parameter the spec leaves OPEN is an opaque constant: nothing can be proved of its value. -/

namespace Sys2Proof

/-- Bit order of a port (R120): which bit of a Byte each of the eight line positions carries. -/
inductive BitOrder where
  | descending
  | ascending
  deriving DecidableEq, Repr, Inhabited

/-- Polarity of a line (R11). -/
inductive Polarity where
  | activeLow
  | activeHigh
  deriving DecidableEq, Repr, Inhabited

/-- What the neighbouring heartbeat does to the target's interrupt line (R8 `HB_MODE`, R226). -/
inductive HeartbeatMode where
  | pulse
  | toggle
  deriving DecidableEq, Repr, Inhabited

/-- What the start-up does to the target's reset line (R8 `TRST_MODE`, R247). -/
inductive TargetResetMode where
  | pulse
  | hold
  deriving DecidableEq, Repr, Inhabited

namespace Config

/-- `FRAME_PREFIX`, the first byte of every frame (R8, R175, R182). -/
def framePrefix : Byte := 0xAA#8

/-- `ORDER_OUT`, open (R8, R120). -/
opaque orderOut : BitOrder

/-- `ORDER_IN`, open (R8, R120). -/
opaque orderIn : BitOrder

/-- `POL_ORDY`, fixed by R8. -/
def polOrdy : Polarity := .activeLow

/-- `POL_IRDY`, fixed by R8. -/
def polIrdy : Polarity := .activeLow

/-- `POL_CS`, fixed by R8. -/
def polCs : Polarity := .activeLow

/-- `POL_OTKN`, open (R8). -/
opaque polOtkn : Polarity

/-- `POL_ITKN`, open (R8). -/
opaque polItkn : Polarity

/-- `POL_DATA`, open (R8 names `ActiveHigh` as a default and no rule depends on it). -/
opaque polData : Polarity

/-- One less than the settle delay below, so that the delay itself is above zero. -/
opaque pulseSettleLessOne : Nat

/-- `T_PULSE_SETTLE`, open, above zero (R262, 93_implementation_defined.md section 3). No rule depends on it. -/
def pulseSettle : Nat := pulseSettleLessOne + 1

/-- `T_IN_SETTLE`, open, zero allowed (R263). No rule depends on it. -/
opaque inSettle : Nat

/-- `T_TAKEN_PULSE`, open, zero allowed (R264). No rule depends on it. -/
opaque takenPulse : Nat

/-- `HB_INTERVAL`, open, a neighbour's figure (R228, R267). No rule depends on it. -/
opaque heartbeatInterval : Nat

/-- `HB_MODE`, open (R228). No rule depends on it. -/
opaque heartbeatMode : HeartbeatMode

/-- `TRST_MODE`, open (R247). No rule depends on it. -/
opaque targetResetMode : TargetResetMode

/-- FREE VALUE (log 6). The Byte a data sample returns while the arbiter does not present the peer's port (R150: "any
Byte"), for the k-th such sample. -/
opaque floatingByte : Nat → Byte

end Config

end Sys2Proof
end

