-- ==== Sys2Proof/Syntax.lean ====
section
/-! DEFINITION. The commands of the engine (spec 30_encoding.md R87): one constructor per row of
spec/opcode_table.json, with the operand types of R89. -/

namespace Sys2Proof

/-- BusOwner (spec 10_state.md R31, R90). The code 0b11 is never held, so it is no constructor. -/
inductive Owner where
  | none
  | hostOutput
  | peerInput
  deriving DecidableEq, Repr

/-- Direction of the shared data-line group (R32). -/
inductive Dir where
  | input
  | output
  deriving DecidableEq, Repr

/-- A command with its operands (R87, R89). -/
inductive Instr where
  | claim (owner : Owner) (direction : Dir)
  | release (owner : Owner)
  | sendb (imm8 : Byte)
  | sendw (imm16 : Word)
  | recvb
  | drain
  | stratack
  | setload (imm16 : Word)
  | setexec (imm16 : Word)
  | setlen (imm16 : Word)
  | dload
  | dloadi
  | setrb (imm1 : Bool)
  | take
  deriving DecidableEq, Repr

end Sys2Proof
end

