-- ==== Sys2Proof/WellFormed.lean ====
section
/-! DEFINITION. Which operand combinations have a legal word (spec 30_encoding.md R87 field constraints, R93). -/

namespace Sys2Proof

/-- The two (owner, direction) pairs a CLAIM word may name (R93: `None` and the crossed pairs are illegal). -/
def legalClaim : Owner → Dir → Bool
  | .hostOutput, .output => true
  | .peerInput, .input => true
  | _, _ => false

/-- The two owners a RELEASE word may name (R93). -/
def legalRelease : Owner → Bool
  | .hostOutput => true
  | .peerInput => true
  | .none => false

/-- The command has a legal word (R87). Only CLAIM and RELEASE carry a field constraint. -/
def Instr.wellFormed : Instr → Bool
  | .claim o d => legalClaim o d
  | .release o => legalRelease o
  | .sendb _ => true
  | .sendw _ => true
  | .recvb => true
  | .drain => true
  | .stratack => true
  | .setload _ => true
  | .setexec _ => true
  | .setlen _ => true
  | .dload => true
  | .dloadi => true
  | .setrb _ => true
  | .take => true

end Sys2Proof
end

