-- ==== Sys2Proof/Decode.lean ====
section
/-! DEFINITION. The decoder (spec 30_encoding.md R88, R89, R92, R93), total on 32-bit words, and after it the encoder,
written from the same layout (R82 to R87). -/

namespace Sys2Proof

/-! ### Fields of a command word (R82) -/

/-- `OP`, bits 31:28. -/
def opField (w : CmdWord) : BitVec 4 := w.extractLsb' 28 4

/-- `OWN`, bits 27:26. -/
def ownField (w : CmdWord) : BitVec 2 := w.extractLsb' 26 2

/-- `DIRF`, bit 25. -/
def dirField (w : CmdWord) : BitVec 1 := w.extractLsb' 25 1

/-- `IMM[15:0]`. -/
def imm16Field (w : CmdWord) : Word := w.extractLsb' 0 16

/-- `IMM[7:0]`. -/
def imm8Field (w : CmdWord) : Byte := w.extractLsb' 0 8

/-- `IMM[0]`. -/
def imm1Field (w : CmdWord) : Bool := w.getLsbD 0

/-- The owner an `OWN` field names (R89); 0b00 and 0b11 name no actor that can claim or release (R93). -/
def ownerOfField (f : BitVec 2) : Option Owner :=
  if f = 0b01#2 then some .hostOutput else if f = 0b10#2 then some .peerInput else none

/-- The direction a `DIRF` field names (R89). -/
def dirOfField (f : BitVec 1) : Dir := if f = 1#1 then .output else .input

/-! ### The decoder -/

/-- Why a word is illegal (R92, R93). All of them have the one behaviour of R88. -/
inductive DecodeError where
  /-- `OP` is 0x0 or 0xF (R92). -/
  | reservedOp
  /-- A bit that the format holds at zero is one (R83 to R86, R93). -/
  | strayBits
  /-- `OWN` is 0b00 or 0b11 in CLAIM or RELEASE (R93). -/
  | reservedOwner
  /-- CLAIM of (`HostOutput`, `Input`) or (`PeerInput`, `Output`) (R93). -/
  | crossedClaim
  deriving DecidableEq, Repr

/-- `w AND mask = match`: the word has the shape of an opcode row (R87). -/
def hasShape (w mask pattern : CmdWord) : Bool := w &&& mask == pattern

/-- A row with no field constraint: the command, if the word has the row's shape. -/
def ifShape (w mask pattern : CmdWord) (i : Instr) : Except DecodeError Instr :=
  if hasShape w mask pattern then .ok i else .error .strayBits

/-- CLAIM's row and field constraint (R87, R93). -/
def decodeClaim (w : CmdWord) : Except DecodeError Instr :=
  if hasShape w 0xF1FFFFFF#32 0x10000000#32 then
    match ownerOfField (ownField w) with
    | none => .error .reservedOwner
    | some o =>
      if legalClaim o (dirOfField (dirField w)) then .ok (.claim o (dirOfField (dirField w)))
      else .error .crossedClaim
  else .error .strayBits

/-- RELEASE's row and field constraint (R87, R93). -/
def decodeRelease (w : CmdWord) : Except DecodeError Instr :=
  if hasShape w 0xF3FFFFFF#32 0x20000000#32 then
    match ownerOfField (ownField w) with
    | none => .error .reservedOwner
    | some o => .ok (.release o)
  else .error .strayBits

/-- R88: the row of `OP`, then its shape, then its field constraint. -/
def decode (w : CmdWord) : Except DecodeError Instr :=
  match (opField w).toNat with
  | 0x1 => decodeClaim w
  | 0x2 => decodeRelease w
  | 0x3 => ifShape w 0xFFFFFF00#32 0x30000000#32 (.sendb (imm8Field w))
  | 0x4 => ifShape w 0xFFFF0000#32 0x40000000#32 (.sendw (imm16Field w))
  | 0x5 => ifShape w 0xFFFFFFFF#32 0x50000000#32 .recvb
  | 0x6 => ifShape w 0xFFFFFFFF#32 0x60000000#32 .drain
  | 0x7 => ifShape w 0xFFFFFFFF#32 0x70000000#32 .stratack
  | 0x8 => ifShape w 0xFFFF0000#32 0x80000000#32 (.setload (imm16Field w))
  | 0x9 => ifShape w 0xFFFF0000#32 0x90000000#32 (.setexec (imm16Field w))
  | 0xA => ifShape w 0xFFFF0000#32 0xA0000000#32 (.setlen (imm16Field w))
  | 0xB => ifShape w 0xFFFFFFFF#32 0xB0000000#32 .dload
  | 0xC => ifShape w 0xFFFFFFFF#32 0xC0000000#32 .dloadi
  | 0xD => ifShape w 0xFFFFFFFE#32 0xD0000000#32 (.setrb (imm1Field w))
  | 0xE => ifShape w 0xFFFFFFFF#32 0xE0000000#32 .take
  | _ => .error .reservedOp

/-- The host's question (opcode-table words): the instruction read from a word whose bits above `nbits` are zero. A
command is exactly one 32-bit word (R82), presented whole, so there is no byte order to undo. -/
def decodeTableWord (nbits w : Nat) : Option Instr :=
  match decode (BitVec.ofNat 32 (w % 2 ^ nbits)) with
  | .ok i => some i
  | .error _ => none

/-! ### The encoder -/

/-- Code of an owner in `OWN` (R31, R89). -/
def Owner.code : Owner → BitVec 2
  | .none => 0b00#2
  | .hostOutput => 0b01#2
  | .peerInput => 0b10#2

/-- Code of a direction in `DIRF` (R32, R89). -/
def Dir.code : Dir → BitVec 1
  | .input => 0#1
  | .output => 1#1

/-- Formats A and N: `OP`, `OWN`, `DIRF`, then 25 zero bits (R83, R84). -/
def formatA (op : BitVec 4) (own : BitVec 2) (dirf : BitVec 1) : CmdWord := op ++ own ++ dirf ++ 0#25

/-- Format B: `OP`, 20 zero bits, a Byte (R85). -/
def formatB (op : BitVec 4) (imm : Byte) : CmdWord := op ++ 0#20 ++ imm

/-- Sub-format B1: `OP`, 27 zero bits, a bit (R85). -/
def formatB1 (op : BitVec 4) (imm : Bool) : CmdWord := op ++ 0#27 ++ BitVec.ofBool imm

/-- Format W: `OP`, 12 zero bits, a Word (R86). -/
def formatW (op : BitVec 4) (imm : Word) : CmdWord := op ++ 0#12 ++ imm

/-- The command word of a command (R87). Of an ill-formed CLAIM or RELEASE it is the illegal word with those fields. -/
def encode : Instr → CmdWord
  | .claim o d => formatA 0x1#4 o.code d.code
  | .release o => formatA 0x2#4 o.code 0#1
  | .sendb b => formatB 0x3#4 b
  | .sendw x => formatW 0x4#4 x
  | .recvb => formatA 0x5#4 0#2 0#1
  | .drain => formatA 0x6#4 0#2 0#1
  | .stratack => formatA 0x7#4 0#2 0#1
  | .setload x => formatW 0x8#4 x
  | .setexec x => formatW 0x9#4 x
  | .setlen x => formatW 0xA#4 x
  | .dload => formatA 0xB#4 0#2 0#1
  | .dloadi => formatA 0xC#4 0#2 0#1
  | .setrb b => formatB1 0xD#4 b
  | .take => formatA 0xE#4 0#2 0#1

end Sys2Proof
end

