-- ==== Sys2Proof/Machine/State.lean ====
section
/-! DEFINITION. The state of the engine (spec 10_state.md R20 to R49), of the agents whose variables its rules read (R44),
and the trace that a claim observes (00_scope.md R13, R16), all as plain data; the fault and refusal names; reset (R47). -/

namespace Sys2Proof.Machine

/-- Logical level of a line (00_scope.md R11). -/
inductive Level where
  | inactive
  | active
  deriving DecidableEq, Repr

/-- Per-byte finite state machine (R29, R30, R135, R136). Code 3 is never produced, so it is no constructor. -/
inductive Fsm where
  | idle
  | readyAsserted
  | acknowledged
  deriving DecidableEq, Repr

/-- SendStrategy (R33). -/
inductive Strategy where
  | pulseTimed
  | acknowledged
  deriving DecidableEq, Repr

/-- Run state (R35). Code 3 is never produced, so it is no constructor. -/
inductive RunState where
  | ready
  | busy
  | halted
  deriving DecidableEq, Repr

/-- The errors of R203, with the codes `Cause.code` gives them. -/
inductive Cause where
  | contention
  | ownership
  | format
  | readbackMismatch
  | interrupted
  | illegalCommand
  | precondition
  deriving DecidableEq, Repr

/-- The four lines the engine drives (R43). -/
inductive EngineLine where
  | ordy
  | itkn
  | csho
  | cspi
  deriving DecidableEq, Repr

/-- The two handshake lines the peer drives (R44, 30_encoding.md R96). -/
inductive PeerLine where
  | otkn
  | irdy
  deriving DecidableEq, Repr

/-- One event of a trace (00_scope.md R13; log 8). -/
inductive TraceEvent where
  /-- `L+`: the engine asserted line `L`. -/
  | asserted (l : EngineLine)
  /-- `L-`: the engine deasserted line `L`. -/
  | deasserted (l : EngineLine)
  /-- `DIR=Out` or `DIR=In`: a reconfiguration actually performed. -/
  | direction (d : Dir)
  /-- `D<=b`: Byte `b` placed on the output latch. -/
  | drove (b : Byte)
  /-- `D=>v`: Byte `v` sampled. -/
  | sampled (v : Byte)
  /-- `peer:L+` or `peer:L-`: line `L` changed to the level. -/
  | peer (l : PeerLine) (v : Level)
  /-- `host:SINK(bs)`: TAKE delivered `bs` to the sink (44_inbound_reader.md R197). -/
  | sink (bs : List Byte)
  /-- `host:CANCEL`, taken in a run state other than `Halted`. -/
  | cancelled
  /-- The reset input (70_reset_and_hazards.md R240). -/
  | reset
  /-- `hb:TINT`, the neighbour's heartbeat (60_exceptions.md R227). -/
  | heartbeat
  deriving DecidableEq, Repr

/-- What the environment may do between two micro-steps (00_scope.md R9). -/
inductive Event where
  /-- The peer drives `OTKN` (R44, R131). -/
  | otkn (v : Level)
  /-- The peer drives `IRDY` (R44, R133). -/
  | irdy (v : Level)
  /-- The peer presents another Byte on its port (R44). -/
  | pdata (b : Byte)
  /-- The operator interrupt (60_exceptions.md R214). -/
  | cancel
  /-- The reset input (70_reset_and_hazards.md R240). -/
  | reset
  /-- The host supplies a payload (20_memory.md R60, R61). -/
  | supply (bs : List Byte)
  /-- The host looks at the register read port (R48): a running command shows the state it has reached (log 3). -/
  | hostReads
  /-- The heartbeat fires (60_exceptions.md R227). -/
  | heartbeat
  deriving DecidableEq, Repr

/-- What the host's single thread does next, when the engine is `Ready` (R44, 30_encoding.md R80, R81; log 2). -/
inductive HostAct where
  /-- `host:CMD(w)`: present command word `w`. -/
  | command (w : CmdWord)
  /-- Supply the payload of the next download (20_memory.md R60). -/
  | payload (bs : List Byte)
  deriving DecidableEq, Repr

/-- The step labels of the command rules (R27), with the operands and temporaries each still needs. The field `seq` holds
the current label first and the labels to return to after it (R49: calls nest at most two deep). -/
inductive Label where
  /-- `raise IllegalCommand` (30_encoding.md R88). -/
  | illegal
  /-- CLAIM's micro-step (40_arbiter.md R103). -/
  | claim (o : Owner) (d : Dir)
  /-- RELEASE's micro-step (40_arbiter.md R108). -/
  | release (o : Owner)
  /-- STRATACK's micro-step (42_handshake.md R158). -/
  | stratack
  /-- SETRB's micro-step (42_handshake.md R160). -/
  | setrb (v : Bool)
  /-- SETLOAD's micro-step (43_download.md R171). -/
  | setload (x : Word)
  /-- SETEXEC's micro-step (43_download.md R172). -/
  | setexec (x : Word)
  /-- SETLEN's micro-step (43_download.md R173). -/
  | setlen (x : Word)
  /-- TAKE's micro-step (44_inbound_reader.md R197). -/
  | take
  /-- `Complete()` after a procedure has returned `Ok` (60_exceptions.md R201). -/
  | complete
  /-- `SendByte(b)` (42_handshake.md R138): the precondition. -/
  | sb1 (b : Byte)
  /-- `DriveData(b)`. -/
  | sb2 (b : Byte)
  /-- Arm the edge detector. -/
  | sb3 (b : Byte)
  /-- Assert "data ready". -/
  | sb4 (b : Byte)
  /-- The wait for the acknowledge edge, or the settle delay. -/
  | sb5 (b : Byte)
  /-- Deassert "data ready". -/
  | sb6 (b : Byte)
  /-- Is there a readback? -/
  | sb7 (b : Byte)
  /-- Readback: `Release(HostOutput)`. -/
  | sb7a (b : Byte)
  /-- Readback: `Claim(PeerInput, Input)`. -/
  | sb7b (b : Byte)
  /-- Readback: `v <- SampleData()`. -/
  | sb7c (b : Byte)
  /-- Readback: `Release(PeerInput)`. -/
  | sb7d (b v : Byte)
  /-- Readback: `Claim(HostOutput, Output)`. -/
  | sb7e (b v : Byte)
  /-- Readback: compare, record a mismatch. -/
  | sb7f (b v : Byte)
  /-- `return Ok`. -/
  | sb8
  /-- RECVB's two preconditions (42_handshake.md R155). -/
  | recv
  /-- `ReceiveByte()` (42_handshake.md R152): the machine leaves `Idle`. -/
  | rb1
  /-- Sample, latch, append. -/
  | rb2
  /-- Assert "data taken". -/
  | rb3
  /-- `Delay(T_TAKEN_PULSE)`. -/
  | rb4
  /-- Deassert "data taken". -/
  | rb5
  /-- `Delay(T_IN_SETTLE)`, the machine returns to `Idle`, `return v`. -/
  | rb6
  /-- DLOAD (43_download.md R177): read `PLEN`, the length limit. -/
  | dl1
  /-- DLOADI (43_download.md R180): read `PLEN`, both format checks. -/
  | di1
  /-- `Claim(HostOutput, Output)`; `n` is the length read at DL1 or DI1. -/
  | dl2 (n : Nat)
  /-- `IDX <- 0`. -/
  | dl3 (n : Nat)
  /-- Call `SendByte(FrameByte(IDX))`. -/
  | dl4 (n : Nat)
  /-- Count the byte; loop or leave. -/
  | dl5 (n : Nat)
  /-- `Release(HostOutput)`. -/
  | dl6
  /-- `Complete()`. -/
  | dl7
  /-- DRAIN (44_inbound_reader.md R191): is "data ready" active? -/
  | dr1
  /-- `Claim(PeerInput, Input)`. -/
  | dr2
  /-- Call `ReceiveByte()`. -/
  | dr3
  /-- Count the byte. -/
  | dr4
  /-- Loop while "data ready" is active. -/
  | dr5
  /-- `Release(PeerInput)`, then `Complete()`. -/
  | dr6
  deriving DecidableEq, Repr

/-- The payload memory `PAY` (20_memory.md R60): cells of rising address, none of which equals what an unlisted address
reads as (log 5). -/
abbrev Memory := List Host.Cell

/-- Why the machine stops with a fault. Both are raised only in states no run reaches (20_memory.md R62; log 13), and both
are safe: the model stops where the spec states nothing. -/
inductive Fault where
  /-- Raised by `FrameByte` when a payload index is not below `PLEN` (20_memory.md R60, R62): the address does not exist.
  Safe. -/
  | payloadOutOfRange
  /-- Raised by `FrameByte` when the frame index is not below `n + 7` (43_download.md R175): there is no such frame byte.
  Safe. -/
  | frameIndexOutOfRange
  deriving DecidableEq, Repr

/-- Why the machine refuses a step. -/
inductive Refusal where
  /-- Raised by an arm of `exec` whose instruction has no meaning yet. Safe: nothing is claimed of it. -/
  | notModelled (mnemonic : String)
  /-- Raised by `exec` in a run state other than `Ready`, and by `step` when the host would present a command while the
  engine is `Halted` and no event that could reset it is to come: the event is not enabled (30_encoding.md R81). Safe. -/
  | commandNotEnabled
  /-- Raised by the environment when the host changes `PAY` or `PLEN` while a download is Busy: the spec gives such a run
  no meaning (20_memory.md R61). Safe. -/
  | payloadChanged
  deriving DecidableEq, Repr

/-- The machine: the engine (R20), the other agents' variables (R44), the trace. Plain data. -/
structure State where
  /-- `DOUT`, the output latch (R21). -/
  dout : Byte
  /-- `DIN`, the last Byte received (R22). -/
  din : Byte
  /-- `LOADADDR` (R23). -/
  loadAddr : Word
  /-- `EXECADDR` (R24). -/
  execAddr : Word
  /-- `LENGTH`, the declared length (R25). -/
  length : Word
  /-- `CUR`, the command word in progress (R26). -/
  cur : CmdWord
  /-- `IDX`, the frame byte index (R28). -/
  idx : BitVec 17
  /-- The hidden remainder of `SEQ` (R27): the current step label, then the labels to return to. -/
  seq : List Label
  /-- `OFSM` (R29). -/
  ofsm : Fsm
  /-- `IFSM` (R30). -/
  ifsm : Fsm
  /-- `OWNER` (R31). -/
  owner : Owner
  /-- `DIR` (R32). -/
  dir : Dir
  /-- `STRAT` (R33). -/
  strat : Strategy
  /-- `RBEN` (R34). -/
  rben : Bool
  /-- `RUN` (R35). -/
  run : RunState
  /-- `RES` (R36). -/
  res : BitVec 3
  /-- `ERRSTAT` (R37). -/
  errstat : BitVec 8
  /-- `RBSENT` (R38). -/
  rbsent : Byte
  /-- `RBREAD` (R38). -/
  rbread : Byte
  /-- `RBCNT` (R39). -/
  rbcnt : BitVec 16
  /-- `DRAINCNT` (R40). -/
  drainCnt : Nat
  /-- `ACKEDGE` (R41). -/
  ackEdge : Bool
  /-- `RDYEDGE` (R42). -/
  rdyEdge : Bool
  /-- Driven level of `ORDY` (R43). -/
  ordy : Level
  /-- Driven level of `ITKN` (R43). -/
  itkn : Level
  /-- Driven level of `CSHO` (R43). -/
  csho : Level
  /-- Driven level of `CSPI` (R43). -/
  cspi : Level
  /-- `INBUF` (20_memory.md R63). -/
  inbuf : List Byte
  /-- Peer: level of `OTKN` (R44). -/
  otkn : Level
  /-- Peer: level of `IRDY` (R44). -/
  irdy : Level
  /-- Peer: `PDATA` (R44). -/
  pdata : Byte
  /-- Host: `PAY` (20_memory.md R60). -/
  pay : Memory
  /-- Host: `PLEN` (20_memory.md R61). -/
  plen : Nat
  /-- Host: what its thread does next (R44; log 2). -/
  host : List HostAct
  /-- The events that land before each coming micro-step, nearest first; past the end, none (00_scope.md R9; log 1). -/
  env : List (List Event)
  /-- The line events so far, oldest first (00_scope.md R13; log 8). -/
  trace : List TraceEvent
  /-- How many free values have been drawn (log 6). -/
  freeCount : Nat
  deriving DecidableEq, Repr

/-- The machine right after reset (R47, 70_reset_and_hazards.md R240), the peer silent, no payload supplied and nothing to
come (logs 1, 2, 4, 5, 6). -/
def State.reset : State where
  dout := 0#8
  din := 0#8
  loadAddr := 0#16
  execAddr := 0#16
  length := 0#16
  cur := 0#32
  idx := 0#17
  seq := []
  ofsm := .idle
  ifsm := .idle
  owner := .none
  dir := .input
  strat := .pulseTimed
  rben := false
  run := .ready
  res := 0#3
  errstat := 0#8
  rbsent := 0#8
  rbread := 0#8
  rbcnt := 0#16
  drainCnt := 0
  ackEdge := false
  rdyEdge := false
  ordy := .inactive
  itkn := .inactive
  csho := .inactive
  cspi := .inactive
  inbuf := []
  otkn := .inactive
  irdy := .inactive
  pdata := 0#8
  pay := []
  plen := 0
  host := []
  env := []
  trace := []
  freeCount := 0

end Sys2Proof.Machine
end

