-- ==== Sys2Proof/Machine/Flags.lean ====
section
/-! DEFINITION. Result codes, the sticky error bits and the mismatch record: the flag computations of the engine (spec
10_state.md R36 to R39, 60_exceptions.md R203). -/

namespace Sys2Proof.Machine

/-- The code of an error (R203): the value `RES` gets and the bit of `ERRSTAT` that is set. -/
def Cause.code : Cause → Nat
  | .contention => 1
  | .ownership => 2
  | .format => 3
  | .readbackMismatch => 4
  | .interrupted => 5
  | .illegalCommand => 6
  | .precondition => 7

/-- The value of `RES` for an error (R36). -/
def Cause.resCode (c : Cause) : BitVec 3 := BitVec.ofNat 3 c.code

/-- `ERRSTAT[code(E)] <- 1`: bitwise OR with `1 << code` (R37, 41_codec.md R128). -/
def setErrBit (c : Cause) (e : BitVec 8) : BitVec 8 := e ||| (1#8 <<< c.code)

/-- `min(RBCNT + 1, 0xFFFF)` (R39): saturating, never wraps. -/
def satIncr (n : BitVec 16) : BitVec 16 := if n = 0xFFFF#16 then n else n + 1#16

/-- `RecordMismatch(b, v)` (42_handshake.md R144). -/
def recordMismatch (b v : Byte) (s : State) : State :=
  { s with
    errstat := setErrBit .readbackMismatch s.errstat
    rbsent := b
    rbread := v
    rbcnt := satIncr s.rbcnt }

end Sys2Proof.Machine
end

