-- ==== Sys2Proof/Machine/Operands.lean ====
section
/-! DEFINITION. The byte and word codec (spec 41_codec.md R120 to R127): pure, total functions. -/

namespace Sys2Proof.Machine

/-- The level that carries a bit: active for 1 (R121). -/
def Level.ofBit (b : Bool) : Level := if b then .active else .inactive

/-- The bit a level carries (R122). -/
def Level.bit (l : Level) : Bool := l = .active

/-- `bitpos(p)` of a port's order (R120): which bit of the Byte position `p` of the port carries. -/
def bitPos : BitOrder → Nat → Nat
  | .descending, p => 7 - p
  | .ascending, p => p

/-- `Encode_X(b)` (R121) for a port of order `o`: the eight levels, position 0 first. -/
def encodeLevels (o : BitOrder) (b : Byte) : Vector Level 8 :=
  Vector.ofFn fun p : Fin 8 => Level.ofBit (b.getLsbD (bitPos o p))

/-- `Decode_X(lv)` (R122) for a port of order `o`. -/
def decodeLevels (o : BitOrder) (lv : Vector Level 8) : Byte :=
  (List.finRange 8).foldl (fun acc p => acc ||| (if lv[p].bit then 1#8 <<< bitPos o p else 0#8)) 0#8

/-- `EncodeWord(w)` (R124): `(w div 256, w mod 256)`, high Byte first. -/
def encodeWord (w : Word) : Byte × Byte := (w.extractLsb' 8 8, w.extractLsb' 0 8)

/-- `DecodeWord(hi, lo)` (R125): `hi * 256 + lo`. -/
def decodeWord (hi lo : Byte) : Word := hi ++ lo

end Sys2Proof.Machine
end

