-- ==== Sys2Proof/Machine/Ops.lean ====
section
/-! DEFINITION. The named operations over the payload memory, the lines, the arbiter and the data sample; how a command
ends (`Complete`, `raise`); CANCEL and reset; what an event of the environment does. -/

namespace Sys2Proof.Machine

/-- The outcome of one operation of the machine. -/
abbrev Result := Host.Outcome State Fault Refusal

/-- Go on with `f` from the next state; a fault or a refusal stands. -/
def andThen (r : Result) (f : State → Result) : Result :=
  match r with
  | .next s => f s
  | .fault x => .fault x
  | .refused x => .refused x

/-! ### Payload memory (20_memory.md R60 to R62) -/

/-- What an unlisted payload address reads as (log 5). -/
def unlistedByte : Byte := 0#8

/-- The byte of a cell list at an address. -/
def Memory.byteAt : Memory → Nat → Byte
  | [], _ => unlistedByte
  | (k, v) :: m, a => if k = a then v else Memory.byteAt m a

/-- Cells strictly rising from address `lo` on, none equal to the unlisted byte. -/
def Memory.risesFrom : Nat → Memory → Bool
  | _, [] => true
  | lo, (k, v) :: m => decide (lo ≤ k) && (v != unlistedByte) && Memory.risesFrom (k + 1) m

/-- The canonical form of a memory. -/
def Memory.wf (m : Memory) : Bool := Memory.risesFrom 0 m

/-- The canonical memory that holds `bs` from address `a` on. -/
def Memory.holding : Nat → List Byte → Memory
  | _, [] => []
  | a, b :: bs => if b = unlistedByte then Memory.holding (a + 1) bs else (a, b) :: Memory.holding (a + 1) bs

/-- The payload memory is canonical and lists no address outside `0 .. PLEN - 1` (R60). -/
def payloadOk (s : State) : Bool := s.pay.wf && s.pay.all fun c => decide (c.1 < s.plen)

/-- `MemRead(PAY, i, 1)` (R60): defined for `i < PLEN`. No side effect (R71). -/
def readPay (s : State) (i : Nat) : Option Byte := if i < s.plen then some (s.pay.byteAt i) else none

/-- The host supplies `PAY` and with it `PLEN` (R60, R61). -/
def supplyPay (bs : List Byte) (s : State) : State := { s with pay := Memory.holding 0 bs, plen := bs.length }

/-- `Append(INBUF, v)` (R63). -/
def appendInbuf (v : Byte) (s : State) : State := { s with inbuf := s.inbuf ++ [v] }

/-! ### Trace, sequencer position and lines (00_scope.md R12, R13; 10_state.md R27, R43) -/

/-- Add an event to the trace. -/
def emit (e : TraceEvent) (s : State) : State := { s with trace := s.trace ++ [e] }

/-- `SEQ <- l, ...`: these labels come next, then the ones to return to (R27). -/
def goto (ls : List Label) (s : State) : State := { s with seq := ls ++ s.seq }

/-- Write the driven level of an engine line (R43). -/
def setLine (l : EngineLine) (v : Level) (s : State) : State :=
  match l with
  | .ordy => { s with ordy := v }
  | .itkn => { s with itkn := v }
  | .csho => { s with csho := v }
  | .cspi => { s with cspi := v }

/-- `Assert(L)` (R12). -/
def assertLine (l : EngineLine) (s : State) : State := emit (.asserted l) (setLine l .active s)

/-- `Deassert(L)` (R12). -/
def deassertLine (l : EngineLine) (s : State) : State := emit (.deasserted l) (setLine l .inactive s)

/-- `DriveData(b)` (R12): the latch takes `b`; the lines carry it while `DIR = Output` (10_state.md R21). -/
def driveData (b : Byte) (s : State) : State := emit (.drove b) { s with dout := b }

/-- Configure the direction only where it differs (40_arbiter.md R102, R104, R107). -/
def setDir (d : Dir) (s : State) : State :=
  if s.dir = d then s else emit (.direction d) { s with dir := d }

/-! ### Arbiter (40_arbiter.md R102, R105, R107) -/

/-- The chip-select of an owner (R105). -/
def chipSelect : Owner → EngineLine
  | .hostOutput => .csho
  | .peerInput => .cspi
  | .none => .cspi

/-- `Claim(o, d)` (R102): an atomic test-and-set (20_memory.md R76). -/
def claimBus (o : Owner) (d : Dir) (s : State) : Except Cause State :=
  if s.owner = .none then .ok (assertLine (chipSelect o) (setDir d { s with owner := o }))
  else .error .contention

/-- `Release(o)` (R107). -/
def releaseBus (o : Owner) (s : State) : Except Cause State :=
  if s.owner = o then .ok (setDir .input { deassertLine (chipSelect o) s with owner := .none })
  else .error .ownership

/-- The state after an arbiter call whose result the rule does not test, because it cannot fail there (40_arbiter.md R109,
42_handshake.md R143; log 12): a failed call writes nothing. -/
def afterCall (r : Except Cause State) (s : State) : State :=
  match r with
  | .ok t => t
  | .error _ => s

/-! ### Data sample (42_handshake.md R150) -/

/-- The arbiter presents the peer's port on the data lines. -/
def peerOnBus (s : State) : Bool := s.owner = .peerInput && s.dir = .input

/-- `SampleData()` (R150): the peer's Byte, or, while the port is not presented, a free value (log 6). -/
def sampleData (s : State) : Byte × State :=
  if peerOnBus s then (s.pdata, emit (.sampled s.pdata) s)
  else
    (Config.floatingByte s.freeCount,
      emit (.sampled (Config.floatingByte s.freeCount)) { s with freeCount := s.freeCount + 1 })

/-! ### How a command ends (60_exceptions.md R200 to R202) -/

/-- `Complete()` (R201). -/
def complete (s : State) : State := { s with res := 0#3, run := .ready, seq := [] }

/-- TAKING AN ERROR, `raise E` (R202): the cause on record, the rest of the command dropped. -/
def raiseError (c : Cause) (s : State) : State :=
  { s with res := c.resCode, errstat := setErrBit c s.errstat, seq := [], run := .ready }

/-- `if r = Ok: Complete() else: raise r`, a failed arbiter call having written nothing (40_arbiter.md R103, R108). -/
def completeOrRaise (r : Except Cause State) (s : State) : State :=
  match r with
  | .ok t => complete t
  | .error c => raiseError c s

/-! ### The two asynchronous inputs (60_exceptions.md R215, R217; 70_reset_and_hazards.md R240) -/

/-- `Deassert(L)` where `L` is active. -/
def deassertIfActive (l : EngineLine) (v : Level) (s : State) : State :=
  if v = .active then deassertLine l s else s

/-- The chip-select part of CANCEL (R215): the current owner's line goes inactive. -/
def dropChipSelect (s : State) : State :=
  match s.owner with
  | .hostOutput => deassertLine .csho s
  | .peerInput => deassertLine .cspi s
  | .none => s

/-- CANCEL in `Ready` or `Busy` (R215), one atomic step in the source's order. -/
def cancelNow (s : State) : State :=
  let s1 := setDir .input { dropChipSelect s with owner := .none }
  let s2 := deassertIfActive .ordy s1.ordy s1
  let s3 := deassertIfActive .itkn s2.itkn s2
  { s3 with
    ofsm := .idle
    ifsm := .idle
    ackEdge := false
    rdyEdge := false
    seq := []
    res := Cause.interrupted.resCode
    errstat := setErrBit .interrupted s3.errstat
    run := .halted }

/-- The CANCEL input (R213 to R217): no effect at all when `Halted`. -/
def cancel (s : State) : State :=
  if s.run = .halted then s else cancelNow (emit .cancelled s)

/-- The reset input (R240): every piece of engine state takes its R47 value, in any run state; the other agents' variables
(R242), what is still to come and the trace stay (log 15). DESIGN CHOICE (log 22): the trace gets the marker `.reset` alone,
no `L-` for a line that was active and no `DIR=In` for a direction that was `Output`; the spec says neither. -/
def resetEngine (s : State) : State :=
  emit .reset
    { State.reset with
      otkn := s.otkn
      irdy := s.irdy
      pdata := s.pdata
      pay := s.pay
      plen := s.plen
      host := s.host
      env := s.env
      trace := s.trace
      freeCount := s.freeCount }

/-! ### Events of the environment (00_scope.md R9; 42_handshake.md R131, R133) -/

/-- The peer drives `OTKN`. The inactive-to-active change itself sets the latch (R131); a level that is no change is no
event. -/
def driveOtkn (v : Level) (s : State) : State :=
  if s.otkn = v then s
  else emit (.peer .otkn v) { s with otkn := v, ackEdge := s.ackEdge || v.bit }

/-- The peer drives `IRDY`; the second detector (R133). -/
def driveIrdy (v : Level) (s : State) : State :=
  if s.irdy = v then s
  else emit (.peer .irdy v) { s with irdy := v, rdyEdge := s.rdyEdge || v.bit }

/-- The label belongs to a download. -/
def Label.ofDownload : Label → Bool
  | .dl1 => true
  | .di1 => true
  | .dl2 _ => true
  | .dl3 _ => true
  | .dl4 _ => true
  | .dl5 _ => true
  | .dl6 => true
  | .dl7 => true
  | _ => false

/-- A download is Busy (20_memory.md R61). -/
def downloading (s : State) : Bool := s.run = .busy && s.seq.any Label.ofDownload

/-- The host supplies a payload at an instant of its own choosing: a change during a download has no meaning (R61; log 7). -/
def supplyNow (bs : List Byte) (s : State) : Result :=
  if downloading s && !((supplyPay bs s).pay == s.pay && (supplyPay bs s).plen == s.plen) then
    .refused .payloadChanged
  else .next (supplyPay bs s)

/-- What one event of the environment does. -/
def applyEvent (e : Event) (s : State) : Result :=
  match e with
  | .otkn v => .next (driveOtkn v s)
  | .irdy v => .next (driveIrdy v s)
  | .pdata b => .next { s with pdata := b }
  | .cancel => .next (cancel s)
  | .reset => .next (resetEngine s)
  | .supply bs => supplyNow bs s
  | .hostReads => .next s
  | .heartbeat => .next (emit .heartbeat s)

/-- Events in order (00_scope.md R9: any finite number between two micro-steps). -/
def applyEvents : List Event → State → Result
  | [], s => .next s
  | e :: es, s => andThen (applyEvent e s) (applyEvents es)

/-- The environment acts: the events due before the coming micro-step (log 1). -/
def letEnvAct (s : State) : Result :=
  match s.env with
  | [] => .next s
  | es :: rest => applyEvents es { s with env := rest }

/-- The host looks at the registers before the coming micro-step (log 3). -/
def hostLooks (s : State) : Bool :=
  match s.env with
  | [] => false
  | es :: _ => es.contains .hostReads

end Sys2Proof.Machine
end

