-- ==== Sys2Proof/Machine/Frame.lean ====
section
/-! DEFINITION. The frame of a download (spec 43_download.md R174, R175). It is not stored: `frameByte` computes each Byte
when it is about to be sent. -/

namespace Sys2Proof.Machine

/-- `FrameByte(k)` for a payload of `n` Bytes (R175). -/
def frameByte (n k : Nat) (s : State) : Except Fault Byte :=
  if k = 0 then .ok Config.framePrefix
  else if k = 1 then .ok (encodeWord s.loadAddr).1
  else if k = 2 then .ok (encodeWord s.loadAddr).2
  else if k = 3 then .ok (encodeWord (BitVec.ofNat 16 n)).1
  else if k = 4 then .ok (encodeWord (BitVec.ofNat 16 n)).2
  else if k < n + 5 then
    match readPay s (k - 5) with
    | some b => .ok b
    | none => .error .payloadOutOfRange
  else if k = n + 5 then .ok (encodeWord s.execAddr).1
  else if k = n + 6 then .ok (encodeWord s.execAddr).2
  else .error .frameIndexOutOfRange

end Sys2Proof.Machine
end

