-- ==== Sys2Proof/Machine/Sequencer.lean ====
section
/-! DEFINITION. The sequencer (spec 10_state.md R27, R49): what each labelled micro-step does, and how a command runs from
its acceptance (30_encoding.md R81) through its micro-steps, the environment acting between any two of them (00_scope.md
R9). -/

namespace Sys2Proof.Machine

/-! ### Micro-steps of `SendByte` (42_handshake.md R138), `s.seq` being the labels to return to -/

/-- SB1: the precondition, before anything is written. An error return is the calling command's `raise` (R146, R148). -/
def stepSb1 (b : Byte) (s : State) : State :=
  if s.owner = .hostOutput ∧ s.dir = .output then goto [.sb2 b] s else raiseError .precondition s

/-- SB3: arm the edge detector (R132). -/
def stepSb3 (b : Byte) (s : State) : State := goto [.sb4 b] { s with ackEdge := false }

/-- SB4: assert "data ready" (R135). -/
def stepSb4 (b : Byte) (s : State) : State := goto [.sb5 b] { assertLine .ordy s with ofsm := .readyAsserted }

/-- SB5 (R135, R140, R141): `Acknowledged` goes on only on the latched edge and otherwise stays at SB5 (R49 "wait"), with no
timeout; `PulseTimed` waits out the delay, reading neither `OTKN` nor `ACKEDGE`. -/
def stepSb5 (b : Byte) (s : State) : State :=
  match s.strat with
  | .pulseTimed => goto [.sb6 b] { s with ofsm := .acknowledged }
  | .acknowledged => if s.ackEdge then goto [.sb6 b] { s with ofsm := .acknowledged } else goto [.sb5 b] s

/-- SB6: deassert "data ready" (R142). -/
def stepSb6 (b : Byte) (s : State) : State := goto [.sb7 b] { deassertLine .ordy s with ofsm := .idle }

/-- SB7: is there a readback (R141, R143)? -/
def stepSb7 (b : Byte) (s : State) : State :=
  if s.strat = .acknowledged ∧ s.rben then goto [.sb7a b] s else goto [.sb8] s

/-- SB7c: the sample, with no inbound handshake (R143). -/
def stepSb7c (b : Byte) (s : State) : State := goto [.sb7d b (sampleData s).1] (sampleData s).2

/-- SB7f: compare (R144). -/
def stepSb7f (b v : Byte) (s : State) : State :=
  goto [.sb8] (if v = b then s else recordMismatch b v s)

/-! ### Micro-steps of RECVB and `ReceiveByte` (42_handshake.md R152, R155) -/

/-- RECVB's two preconditions, ownership first (R155, R219). -/
def stepRecv (s : State) : State :=
  if ¬ (s.owner = .peerInput ∧ s.dir = .input) then raiseError .precondition s
  else if s.irdy = .inactive then raiseError .precondition s
  else goto [.rb1, .complete] s

/-- RB2: sample, latch, clear the ready edge, append (R152). -/
def stepRb2 (s : State) : State :=
  goto [.rb3] (appendInbuf (sampleData s).1 { (sampleData s).2 with din := (sampleData s).1, rdyEdge := false })

/-! ### Micro-steps of the downloads (43_download.md R177, R180) -/

/-- DL1: `n <- PLEN` and the length limit (R176). -/
def stepDl1 (s : State) : State :=
  if s.plen > 65535 then raiseError .format s else goto [.dl2 s.plen] s

/-- DI1: the length limit, then the declared length (R180). -/
def stepDi1 (s : State) : State :=
  if s.plen > 65535 then raiseError .format s
  else if s.length.toNat ≠ s.plen then raiseError .format s
  else goto [.dl2 s.plen] s

/-- The call of a claim inside DLOAD or DRAIN: on success the next label, otherwise `raise`. -/
def claimThen (o : Owner) (d : Dir) (next : Label) (s : State) : State :=
  match claimBus o d s with
  | .ok t => goto [next] t
  | .error c => raiseError c s

/-- DL4: evaluate the frame byte and call `SendByte` (R175, R177). -/
def stepDl4 (n : Nat) (s : State) : Result :=
  match frameByte n s.idx.toNat s with
  | .ok b => .next (goto [.sb1 b, .dl5 n] s)
  | .error f => .fault f

/-- DL5: count, then loop or leave (R177, R49). -/
def stepDl5 (n : Nat) (s : State) : State :=
  goto [if (s.idx + 1#17).toNat < n + 7 then .dl4 n else .dl6] { s with idx := s.idx + 1#17 }

/-! ### Micro-steps of DRAIN (44_inbound_reader.md R191) -/

/-- DR1: the level test; the empty path (R192). -/
def stepDr1 (s : State) : State := if s.irdy = .inactive then complete s else goto [.dr2] s

/-- DR5: the level test of the loop. -/
def stepDr5 (s : State) : State := goto [if s.irdy = .active then .dr3 else .dr6] s

/-! ### One micro-step -/

/-- What the micro-step at label `l` does; `s.seq` holds the labels to return to (R27, R49). -/
def micro (l : Label) (s : State) : Result :=
  match l with
  | .illegal => .next (raiseError .illegalCommand s)
  | .claim o d => .next (completeOrRaise (claimBus o d s) s)
  | .release o => .next (completeOrRaise (releaseBus o s) s)
  | .stratack =>
    .next (if s.strat = .acknowledged then raiseError .precondition s else complete { s with strat := .acknowledged })
  | .setrb v => .next (complete { s with rben := v })
  | .setload x => .next (complete { s with loadAddr := x })
  | .setexec x => .next (complete { s with execAddr := x })
  | .setlen x => .next (complete { s with length := x })
  | .take => .next (complete { emit (.sink s.inbuf) s with inbuf := [] })
  | .complete => .next (complete s)
  | .sb1 b => .next (stepSb1 b s)
  | .sb2 b => .next (goto [.sb3 b] (driveData b s))
  | .sb3 b => .next (stepSb3 b s)
  | .sb4 b => .next (stepSb4 b s)
  | .sb5 b => .next (stepSb5 b s)
  | .sb6 b => .next (stepSb6 b s)
  | .sb7 b => .next (stepSb7 b s)
  | .sb7a b => .next (goto [.sb7b b] (afterCall (releaseBus .hostOutput s) s))
  | .sb7b b => .next (goto [.sb7c b] (afterCall (claimBus .peerInput .input s) s))
  | .sb7c b => .next (stepSb7c b s)
  | .sb7d b v => .next (goto [.sb7e b v] (afterCall (releaseBus .peerInput s) s))
  | .sb7e b v => .next (goto [.sb7f b v] (afterCall (claimBus .hostOutput .output s) s))
  | .sb7f b v => .next (stepSb7f b v s)
  | .sb8 => .next s
  | .recv => .next (stepRecv s)
  | .rb1 => .next (goto [.rb2] { s with ifsm := .readyAsserted })
  | .rb2 => .next (stepRb2 s)
  | .rb3 => .next (goto [.rb4] { assertLine .itkn s with ifsm := .acknowledged })
  | .rb4 => .next (goto [.rb5] s)
  | .rb5 => .next (goto [.rb6] (deassertLine .itkn s))
  | .rb6 => .next { s with ifsm := .idle }
  | .dl1 => .next (stepDl1 s)
  | .di1 => .next (stepDi1 s)
  | .dl2 n => .next (claimThen .hostOutput .output (.dl3 n) s)
  | .dl3 n => .next (goto [.dl4 n] { s with idx := 0#17 })
  | .dl4 n => stepDl4 n s
  | .dl5 n => .next (stepDl5 n s)
  | .dl6 => .next (goto [.dl7] (afterCall (releaseBus .hostOutput s) s))
  | .dl7 => .next (complete s)
  | .dr1 => .next (stepDr1 s)
  | .dr2 => .next (claimThen .peerInput .input .dr3 s)
  | .dr3 => .next (goto [.rb1, .dr4] s)
  | .dr4 => .next (goto [.dr5] { s with drainCnt := s.drainCnt + 1 })
  | .dr5 => .next (stepDr5 s)
  | .dr6 => .next (complete (afterCall (releaseBus .peerInput s) s))

/-- The engine's turn: while `Busy`, the micro-step at the current label; otherwise nothing. -/
def engineTurn (s : State) : Result :=
  match s.run, s.seq with
  | .busy, l :: rest => micro l { s with seq := rest }
  | _, _ => .next s

/-- The environment's events that are due, then the engine's turn (R9; CANCEL is taken before the micro-step or ends it,
60_exceptions.md R216). -/
def microStep (s : State) : Result := andThen (letEnvAct s) engineTurn

/-! ### A command from acceptance on -/

/-- No event is to come, and without one the command in progress does not end: the acknowledged wait (42_handshake.md
R140), or the drain loop while "data ready" stays active (44_inbound_reader.md R194). -/
def leftToEnv (s : State) : Bool :=
  s.env.isEmpty &&
    match s.seq with
    | [] => true
    | .sb5 _ :: _ => s.strat = .acknowledged && !s.ackEdge
    | .dr5 :: _ => s.irdy = .active
    | _ => false

/-- Micro-steps, at most `fuel` of them, until the command has ended, or the host looks at the registers, or only the
environment could bring it on (log 3). -/
def runFor : Nat → State → Result
  | 0, s => .next s
  | fuel + 1, s =>
    if s.run ≠ .busy || leftToEnv s then .next s
    else if hostLooks s then letEnvAct s
    else andThen (microStep s) (runFor fuel)

/-- Enough turns for every command that ends and for everything the environment still does (log 3): one turn uses up one
entry of `env`, and past its end a frame takes at most 16 micro-steps a byte. -/
def turnsFor (s : State) : Nat := s.env.length + 32 * (s.plen + 8)

/-- Acceptance of `w` (30_encoding.md R81): `CUR <- w; RUN <- Busy`, and the labels of the command it names. -/
def accept (w : CmdWord) (ls : List Label) (s : State) : State := { s with cur := w, run := .busy, seq := ls }

/-- Accept `w`, enabled only when `Ready` (R81), and run its micro-steps. -/
def runCommand (w : CmdWord) (ls : List Label) (s : State) : Result :=
  if s.run = .ready then runFor (turnsFor s) (accept w ls s) else .refused .commandNotEnabled

/-- A word that is no legal command: its one micro-step is `raise IllegalCommand` (R88, 60_exceptions.md R209). -/
def runIllegal (w : CmdWord) (s : State) : Result := runCommand w [.illegal] s

end Sys2Proof.Machine
end

