-- ==== Sys2Proof/Machine/Arbiter.lean ====
section
/-! DEFINITION. The commands of the bus arbiter (spec 40_arbiter.md): CLAIM and RELEASE. -/

namespace Sys2Proof.Machine

/-- `CLAIM owner, direction` (R103). A pair with no legal word is its illegal word (30_encoding.md R93; log 16). -/
def execClaim (o : Owner) (d : Dir) (s : State) : Result :=
  runCommand (encode (.claim o d)) [if legalClaim o d then .claim o d else .illegal] s

/-- `RELEASE owner` (R108). An owner with no legal word is its illegal word (30_encoding.md R93; log 16). -/
def execRelease (o : Owner) (s : State) : Result :=
  runCommand (encode (.release o)) [if legalRelease o then .release o else .illegal] s

end Sys2Proof.Machine
end

