-- ==== Sys2Proof/Machine/Download.lean ====
section
/-! DEFINITION. The commands of the download sequencer (spec 43_download.md): SETLOAD, SETEXEC, SETLEN, DLOAD, DLOADI. -/

namespace Sys2Proof.Machine

/-- `SETLOAD imm16` (R171). -/
def execSetload (x : Word) (s : State) : Result := runCommand (encode (.setload x)) [.setload x] s

/-- `SETEXEC imm16` (R172). -/
def execSetexec (x : Word) (s : State) : Result := runCommand (encode (.setexec x)) [.setexec x] s

/-- `SETLEN imm16` (R173). -/
def execSetlen (x : Word) (s : State) : Result := runCommand (encode (.setlen x)) [.setlen x] s

/-- `DLOAD` (R177). -/
def execDload (s : State) : Result := runCommand (encode .dload) [.dl1] s

/-- `DLOADI` (R180). -/
def execDloadi (s : State) : Result := runCommand (encode .dloadi) [.di1] s

end Sys2Proof.Machine
end

