-- ==== Sys2Proof/Machine/Handshake.lean ====
section
/-! DEFINITION. The commands of the handshake engine (spec 42_handshake.md): SENDB, SENDW, RECVB, STRATACK, SETRB. -/

namespace Sys2Proof.Machine

/-- `SENDB imm8` (R146). -/
def execSendb (b : Byte) (s : State) : Result := runCommand (encode (.sendb b)) [.sb1 b, .complete] s

/-- `SENDW imm16` (R148): `SendWord` sends the high Byte first (R147); an error of the first ends it. -/
def execSendw (x : Word) (s : State) : Result :=
  runCommand (encode (.sendw x)) [.sb1 (encodeWord x).1, .sb1 (encodeWord x).2, .complete] s

/-- `RECVB` (R155). -/
def execRecvb (s : State) : Result := runCommand (encode .recvb) [.recv] s

/-- `STRATACK` (R158). -/
def execStratack (s : State) : Result := runCommand (encode .stratack) [.stratack] s

/-- `SETRB imm1` (R160). -/
def execSetrb (v : Bool) (s : State) : Result := runCommand (encode (.setrb v)) [.setrb v] s

end Sys2Proof.Machine
end

