-- ==== Sys2Proof/Machine/Inbound.lean ====
section
/-! DEFINITION. The commands of the inbound reader (spec 44_inbound_reader.md): DRAIN and TAKE. -/

namespace Sys2Proof.Machine

/-- `DRAIN` (R191): DR0 clears `DRAINCNT` at acceptance. -/
def execDrain (s : State) : Result := runCommand (encode .drain) [.dr1] { s with drainCnt := 0 }

/-- `TAKE` (R197). -/
def execTake (s : State) : Result := runCommand (encode .take) [.take] s

end Sys2Proof.Machine
end

