-- ==== Sys2Proof/Machine/Dispatch.lean ====
section
/-! DEFINITION. One arm per command (spec 30_encoding.md R87, R88). -/

namespace Sys2Proof.Machine

/-- The meaning of a command: its acceptance and its micro-steps. -/
def exec (i : Instr) (s : State) : Host.Outcome State Fault Refusal :=
  match i with
  | .claim o d => Sys2Proof.Machine.execClaim o d s
  | .release o => Sys2Proof.Machine.execRelease o s
  | .sendb b => Sys2Proof.Machine.execSendb b s
  | .sendw x => Sys2Proof.Machine.execSendw x s
  | .recvb => Sys2Proof.Machine.execRecvb s
  | .drain => Sys2Proof.Machine.execDrain s
  | .stratack => Sys2Proof.Machine.execStratack s
  | .setload x => Sys2Proof.Machine.execSetload x s
  | .setexec x => Sys2Proof.Machine.execSetexec x s
  | .setlen x => Sys2Proof.Machine.execSetlen x s
  | .dload => Sys2Proof.Machine.execDload s
  | .dloadi => Sys2Proof.Machine.execDloadi s
  | .setrb v => Sys2Proof.Machine.execSetrb v s
  | .take => Sys2Proof.Machine.execTake s

end Sys2Proof.Machine
end

