-- ==== Sys2Proof/Machine/HostPort.lean ====
section
/-! DEFINITION. Whose turn it is, and the host at the command port (spec 30_encoding.md R80, R81): a command is taken only
when `RUN = Ready`. -/

namespace Sys2Proof.Machine

/-- `host:CMD(w)` in `Ready` (R81, R88): the command `w` decodes to, or the one effect of an illegal word. -/
def acceptWord (w : CmdWord) (s : State) : Result :=
  match decode w with
  | .ok i => exec i s
  | .error _ => runIllegal w s

/-- The host's turn in `Ready`: its next command or payload; with neither, the engine does nothing (70_reset_and_hazards.md
R243). -/
def hostTurn (s : State) : Result :=
  match s.host with
  | [] => .next s
  | .payload bs :: rest => .next (supplyPay bs { s with host := rest })
  | .command w :: rest => acceptWord w { s with host := rest }

/-- The host's turn in `Halted`: no command is accepted until reset (R81, 60_exceptions.md R218). A command waits while
events are to come that may hold a reset; with none, it is not enabled (log 2). -/
def haltedTurn (s : State) : Result :=
  match s.host with
  | [] => .next s
  | .payload bs :: rest => .next (supplyPay bs { s with host := rest })
  | .command _ :: _ => if s.env.isEmpty then .refused .commandNotEnabled else .next s

/-- Whose turn it is after the environment's events (60_exceptions.md R221). -/
def turn (s : State) : Result :=
  match s.run with
  | .ready => hostTurn s
  | .busy => engineTurn s
  | .halted => haltedTurn s

/-- `word` at the head of the host's stream, with no event due before it is accepted (log 17). -/
def presentNext (w : CmdWord) (s : State) : State := { s with host := .command w :: s.host, env := [] :: s.env }

end Sys2Proof.Machine
end

