-- ==== Sys2Proof/Machine/Step.lean ====
section
/-! DEFINITION. One step of the machine, and the placing of a command word where the next step takes it. -/

namespace Sys2Proof.Machine

/-- One step: the environment's events that are due (spec 00_scope.md R9), then whoever's turn it is. The step in which a
command is accepted runs it (log 3); a `Busy` state goes on by one micro-step. -/
def step (s : State) : Host.Outcome State Fault Refusal :=
  if hostLooks s then letEnvAct s else andThen (letEnvAct s) turn

/-- The state whose next step, in `Ready`, accepts the word numbered as spec/opcode_table.json numbers it (log 17). -/
def State.withFetchWord (s : State) (nbits w : Nat) : State := presentNext (BitVec.ofNat 32 (w % 2 ^ nbits)) s

end Sys2Proof.Machine
end

