-- ==== Sys2Proof/Machine/HostSide.lean ====
section
/-! DEFINITION. What the host's collaborators hand to the engine: the pseudo-commands of the assembler (spec 30_encoding.md
R95) and the image layout (20_memory.md R66, R67). The engine parses no image. -/

namespace Sys2Proof.Machine

/-- The pseudo-commands of R95. -/
inductive Pseudo where
  | claimout | claimin | relout | relin | rbon | rboff
  | dlexec (load exec : Word)
  | dlfile (load len exec : Word)
  deriving DecidableEq, Repr

/-- Their expansions (R95). -/
def Pseudo.expand : Pseudo → List Instr
  | .claimout => [.claim .hostOutput .output]
  | .claimin => [.claim .peerInput .input]
  | .relout => [.release .hostOutput]
  | .relin => [.release .peerInput]
  | .rbon => [.setrb true]
  | .rboff => [.setrb false]
  | .dlexec load exec => [.setload load, .setexec exec, .dload]
  | .dlfile load len exec => [.setload load, .setlen len, .setexec exec, .dloadi]

/-- The parts of an image that the collaborator delivers (R67). -/
structure ImageParts where
  loadAddr : Word
  length : Word
  payload : List Byte
  execAddr : Word
  deriving DecidableEq, Repr

/-- The image layout (R66), high Byte first. -/
def ImageParts.bytes (p : ImageParts) : List Byte :=
  [(encodeWord p.loadAddr).1, (encodeWord p.loadAddr).2, (encodeWord p.length).1, (encodeWord p.length).2]
    ++ p.payload ++ [(encodeWord p.execAddr).1, (encodeWord p.execAddr).2]

/-- The parts of an image of at least six bytes (R67): the payload is what stands after offset 4 and before the final two
bytes. DESIGN CHOICE (log 23): the exec address is those final two bytes, whatever the length field says; in an ill-formed
image R66's table has it at offset `4 + L`. A shorter image has no parts here; what is done with one the spec does not say
(91_not_in_source.md N11). -/
def parseImage : List Byte → Option ImageParts
  | l1 :: l0 :: n1 :: n0 :: rest =>
    match rest.reverse with
    | e0 :: e1 :: back => some ⟨decodeWord l1 l0, decodeWord n1 n0, back.reverse, decodeWord e1 e0⟩
    | _ => none
  | _ => none

/-- The delivery of an image to the engine: the payload, then DLFILE (R67, R95). -/
def ImageParts.deliver (p : ImageParts) : List HostAct :=
  .payload p.payload
    :: (Pseudo.dlfile p.loadAddr p.length p.execAddr).expand.map fun i => .command (encode i)

end Sys2Proof.Machine
end

