-- ==== Sys2Proof/Machine/Lines.lean ====
section
/-! DEFINITION. The pins as a test bench sees them (spec 30_encoding.md R96, 00_scope.md R11): the logical level of each
line, who drives the eight data lines, and electrical levels. No rule of the engine reads these. -/

namespace Sys2Proof.Machine

/-- The handshake and chip-select lines of R96. -/
inductive Line where
  | ordy | otkn | irdy | itkn | csho | cspi
  deriving DecidableEq, Repr

/-- The logical level of a line. -/
def lineLevel (l : Line) (s : State) : Level :=
  match l with
  | .ordy => s.ordy
  | .otkn => s.otkn
  | .irdy => s.irdy
  | .itkn => s.itkn
  | .csho => s.csho
  | .cspi => s.cspi

/-- The polarity of a line (R8, R96). -/
def linePolarity : Line → Polarity
  | .ordy => Config.polOrdy
  | .otkn => Config.polOtkn
  | .irdy => Config.polIrdy
  | .itkn => Config.polItkn
  | .csho => Config.polCs
  | .cspi => Config.polCs

/-- The electrical level, 1 for high, of a logical level (R11). -/
def electrical (p : Polarity) (v : Level) : Bool :=
  match p with
  | .activeLow => !v.bit
  | .activeHigh => v.bit

/-- The electrical level of a line (R11). -/
def lineElectrical (l : Line) (s : State) : Bool := electrical (linePolarity l) (lineLevel l s)

/-- The logical levels of the eight data lines, position 0 of the driving port first: `Encode_out(DOUT)` while
`DIR = Output` (10_state.md R21, R32), the peer's port while it is presented (R96), otherwise not driven. -/
def dataLines (s : State) : Option (Vector Level 8) :=
  match s.dir with
  | .output => some (encodeLevels Config.orderOut s.dout)
  | .input => if peerOnBus s then some (encodeLevels Config.orderIn s.pdata) else none

/-- The electrical levels of the eight data lines (R121 `POL_DATA`). -/
def dataElectrical (s : State) : Option (Vector Bool 8) := (dataLines s).map fun lv => lv.map (electrical Config.polData)

end Sys2Proof.Machine
end

