-- ==== Sys2Proof/Machine/ReadPort.lean ====
section
/-! DEFINITION. The register read port (spec 10_state.md R48): every register at any time, combinational, without side
effect, in the encodings of R29 to R37. -/

namespace Sys2Proof.Machine

/-- The registers of R20. -/
inductive RegName where
  | dout | din | loadaddr | execaddr | length | cur | idx | ofsm | ifsm | owner | dir | strat | rben | run | res
  | errstat | rbsent | rbread | rbcnt | draincnt | ackedge | rdyedge
  deriving DecidableEq, Repr

/-- Code of a per-byte machine state (R29). -/
def Fsm.code : Fsm → BitVec 2
  | .idle => 0#2
  | .readyAsserted => 1#2
  | .acknowledged => 2#2

/-- Code of a strategy (R33). -/
def Strategy.code : Strategy → BitVec 1
  | .pulseTimed => 0#1
  | .acknowledged => 1#1

/-- Code of a run state (R35). -/
def RunState.code : RunState → BitVec 2
  | .ready => 0#2
  | .busy => 1#2
  | .halted => 2#2

/-- What the read port shows (R48). Bit 0 of `ERRSTAT` is hardwired 0 (R37; log 19); `DRAINCNT` is unbounded (R40). -/
def readReg (r : RegName) (s : State) : Nat :=
  match r with
  | .dout => s.dout.toNat
  | .din => s.din.toNat
  | .loadaddr => s.loadAddr.toNat
  | .execaddr => s.execAddr.toNat
  | .length => s.length.toNat
  | .cur => s.cur.toNat
  | .idx => s.idx.toNat
  | .ofsm => s.ofsm.code.toNat
  | .ifsm => s.ifsm.code.toNat
  | .owner => s.owner.code.toNat
  | .dir => s.dir.code.toNat
  | .strat => s.strat.code.toNat
  | .rben => s.rben.toNat
  | .run => s.run.code.toNat
  | .res => s.res.toNat
  | .errstat => (s.errstat &&& 0xFE#8).toNat
  | .rbsent => s.rbsent.toNat
  | .rbread => s.rbread.toNat
  | .rbcnt => s.rbcnt.toNat
  | .draincnt => s.drainCnt
  | .ackedge => s.ackEdge.toNat
  | .rdyedge => s.rdyEdge.toNat

/-- The host may also read the contents of `INBUF` (20_memory.md R64). -/
def readInbuf (s : State) : List Byte := s.inbuf

end Sys2Proof.Machine
end

