-- ==== Sys2Proof/Safety.lean ====
section
/-! DEFINITION. What the statements speak in: the invariants of the machine (spec 10_state.md R45), kinds of schedules,
and what is read off a trace (00_scope.md R13, R16). -/

namespace Sys2Proof.Machine

/-! ### Invariants -/

/-- R45, first four items: the owner fixes the direction and the chip-selects. -/
def arbiterOk (s : State) : Bool :=
  match s.owner with
  | .none => s.dir = .input && s.csho = .inactive && s.cspi = .inactive
  | .hostOutput => s.dir = .output && s.csho = .active && s.cspi = .inactive
  | .peerInput => s.dir = .input && s.csho = .inactive && s.cspi = .active

/-- The outbound channel rests. -/
def outboundIdle (s : State) : Bool := s.ofsm = .idle && s.ordy = .inactive

/-- The inbound channel rests. -/
def inboundIdle (s : State) : Bool := s.ifsm = .idle && s.itkn = .inactive

/-- Both channels rest (R45, fifth item). -/
def handshakeIdle (s : State) : Bool := outboundIdle s && inboundIdle s

/-- Byte `b` is offered: on the lines, "data ready" active (42_handshake.md R139, R149). -/
def offering (b : Byte) (m : Fsm) (s : State) : Bool :=
  s.owner = .hostOutput && s.dout = b && s.ofsm = m && s.ordy = .active && inboundIdle s

/-- A byte is being read: the bus is held for peer input, the inbound channel stands at `m` and `v`. -/
def receiving (m : Fsm) (v : Level) (s : State) : Bool :=
  s.owner = .peerInput && outboundIdle s && s.ifsm = m && s.itkn = v

/-- What holds when the engine stands at a label (42_handshake.md R135, R136, R138, R152; 43_download.md R177;
44_inbound_reader.md R191). -/
def labelOk (l : Label) (s : State) : Bool :=
  match l with
  | .claim o d => legalClaim o d && handshakeIdle s
  | .release o => legalRelease o && handshakeIdle s
  | .sb1 _ => handshakeIdle s
  | .sb2 _ => s.owner = .hostOutput && handshakeIdle s
  | .sb3 b => s.owner = .hostOutput && s.dout = b && handshakeIdle s
  | .sb4 b => s.owner = .hostOutput && s.dout = b && handshakeIdle s
  | .sb5 b => offering b .readyAsserted s
  | .sb6 b => offering b .acknowledged s
  | .sb7 b => s.owner = .hostOutput && s.dout = b && handshakeIdle s
  | .sb7a b => s.owner = .hostOutput && s.dout = b && handshakeIdle s
  | .sb7b b => s.owner = .none && s.dout = b && handshakeIdle s
  | .sb7c b => s.owner = .peerInput && s.dout = b && handshakeIdle s
  | .sb7d b _ => s.owner = .peerInput && s.dout = b && handshakeIdle s
  | .sb7e b _ => s.owner = .none && s.dout = b && handshakeIdle s
  | .sb7f b _ => s.owner = .hostOutput && s.dout = b && handshakeIdle s
  | .sb8 => s.owner = .hostOutput && handshakeIdle s
  | .rb1 => receiving .idle .inactive s
  | .rb2 => receiving .readyAsserted .inactive s
  | .rb3 => receiving .readyAsserted .inactive s
  | .rb4 => receiving .acknowledged .active s
  | .rb5 => receiving .acknowledged .active s
  | .rb6 => receiving .acknowledged .inactive s
  | .dl2 n => n = s.plen && n ≤ 65535 && handshakeIdle s
  | .dl3 n => n = s.plen && n ≤ 65535 && s.owner = .hostOutput && handshakeIdle s
  | .dl4 n => n = s.plen && n ≤ 65535 && s.idx.toNat < n + 7 && s.owner = .hostOutput && handshakeIdle s
  | .dl5 n => n = s.plen && n ≤ 65535 && s.idx.toNat < n + 7 && s.owner = .hostOutput && handshakeIdle s
  | .dl6 => s.owner = .hostOutput && handshakeIdle s
  | .dr3 => s.owner = .peerInput && handshakeIdle s
  | .dr4 => s.owner = .peerInput && handshakeIdle s
  | .dr5 => s.owner = .peerInput && handshakeIdle s
  | .dr6 => s.owner = .peerInput && handshakeIdle s
  | _ => handshakeIdle s

/-- The label is a step of `SendByte`. -/
def Label.ofSend : Label → Bool
  | .sb1 _ => true
  | .sb2 _ => true
  | .sb3 _ => true
  | .sb4 _ => true
  | .sb5 _ => true
  | .sb6 _ => true
  | .sb7 _ => true
  | .sb7a _ => true
  | .sb7b _ => true
  | .sb7c _ => true
  | .sb7d _ _ => true
  | .sb7e _ _ => true
  | .sb7f _ _ => true
  | .sb8 => true
  | _ => false

/-- The label is a step of `ReceiveByte`. -/
def Label.ofReceive : Label → Bool
  | .rb1 => true
  | .rb2 => true
  | .rb3 => true
  | .rb4 => true
  | .rb5 => true
  | .rb6 => true
  | _ => false

/-- The labels that may wait below a step of `SendByte`, and what must hold for them (R49): SENDB's or SENDW's end, SENDW's
second byte, or DLOAD's count. The bus is held for output throughout the download. -/
def sendReturnOk (first : Bool) (rest : List Label) (s : State) : Bool :=
  match rest with
  | [.complete] => true
  | [.sb1 _, .complete] => true
  | [.dl5 n] => n = s.plen && n ≤ 65535 && s.idx.toNat < n + 7 && (!first || s.owner = .hostOutput)
  | _ => false

/-- The labels that may wait below a step of `ReceiveByte` (R49): RECVB's end or DRAIN's count. -/
def receiveReturnOk (rest : List Label) : Bool :=
  match rest with
  | [.complete] => true
  | [.dr4] => true
  | _ => false

/-- The first step of `SendByte`, at which the bus need not be held. -/
def Label.isSb1 : Label → Bool
  | .sb1 _ => true
  | _ => false

/-- The sequencer position of a command in progress is one that the command rules produce (R27, R49). -/
def seqOk (s : State) : Bool :=
  match s.seq with
  | [] => false
  | l :: rest =>
    labelOk l s &&
      (if l.ofSend then sendReturnOk l.isSb1 rest s else if l.ofReceive then receiveReturnOk rest else rest.isEmpty)

/-- What the run state fixes (R45, fifth and sixth items; R221). -/
def runOk (s : State) : Bool :=
  match s.run with
  | .ready => s.seq.isEmpty && handshakeIdle s
  | .halted => s.seq.isEmpty && handshakeIdle s && s.owner = .none
  | .busy => seqOk s

/-- Bit 0 of `ERRSTAT` is 0 (R37) and `RES` is never 4 (R36). -/
def recordOk (s : State) : Bool := !s.errstat.getLsbD 0 && s.res != 4#3

/-- The invariant of the machine: R45, the sequencer position, the record, the payload's canonical form. -/
def invariant (s : State) : Bool := arbiterOk s && runOk s && recordOk s && payloadOk s

/-- The label is one whose rule calls `Claim` or `Release`. -/
def callsArbiter : Label → Bool
  | .claim _ _ => true
  | .release _ => true
  | .sb7a _ => true
  | .sb7b _ => true
  | .sb7d _ _ => true
  | .sb7e _ _ => true
  | .dl2 _ => true
  | .dl6 => true
  | .dr2 => true
  | .dr6 => true
  | _ => false

/-! ### Schedules -/

/-- An event that only the peer or the heartbeat makes. -/
def Event.ofPeer : Event → Bool
  | .otkn _ => true
  | .irdy _ => true
  | .pdata _ => true
  | .heartbeat => true
  | .cancel => false
  | .reset => false
  | .supply _ => false
  | .hostReads => false

/-- In everything to come, only the peer and the heartbeat act. -/
def peerOnly (s : State) : Bool := s.env.all fun es => es.all Event.ofPeer

/-- The reset input is not among the events due before the coming micro-step. -/
def noResetDue (s : State) : Bool :=
  match s.env with
  | [] => true
  | es :: _ => !es.contains .reset

/-- The reset input is not among the events to come. -/
def noReset (s : State) : Bool := s.env.all fun es => !es.contains .reset

/-- The level an event drives a peer line to. -/
def Event.drives : PeerLine → Event → Option Level
  | .otkn, .otkn v => some v
  | .irdy, .irdy v => some v
  | _, _ => none

/-- An inactive-to-active change of the line happens in the events, the line standing at `v` before them (R131, R133). -/
def risesIn (l : PeerLine) : Level → List Event → Bool
  | _, [] => false
  | v, e :: es =>
    match e.drives l with
    | some w => (v == .inactive && w == .active) || risesIn l w es
    | none => risesIn l v es

/-- A pulse on `OTKN` too narrow to be sampled: active and inactive again with no micro-step between (R131). -/
def narrowPulse : List Event := [.otkn .active, .otkn .inactive]

/-- The narrow pulse comes `k` turns after SB3 of a `SendByte` started by a SEND command: before SB4 for `k = 0`, otherwise
at the `k`-th turn of the wait at SB5. -/
def pulseAt (k : Nat) : List (List Event) := List.replicate (3 + k) [] ++ [narrowPulse]

/-- The peer acknowledges the two bytes of a SENDW, the first as `pulseAt k` does, the second as `pulseAt m` does: from the
pulse to the second SB1, SB6 to SB8 come, and SB5 too if the pulse came before SB4. -/
def pulsesAt (k m : Nat) : List (List Event) :=
  pulseAt k ++ List.replicate (if k = 0 then 4 else 3) [] ++ pulseAt m

/-- One byte of a download with readback: the peer acknowledges at SB5 and presents `v` at SB7c. -/
def echoTurn (v : Byte) : List (List Event) :=
  [[], [], [], [], [], narrowPulse, [], [], [], [], [.pdata v], [], [], [], [], []]

/-! ### What the peer has done by a given turn

While only the peer acts, these follow the peer's variables and the schedule; they read nothing of the engine. -/

/-- `s` after the events before the first `n` coming micro-steps, the engine taking none of them. -/
def peerAfter : Nat → State → State
  | 0, s => s
  | n + 1, s =>
    match letEnvAct s with
    | .next t => peerAfter n t
    | _ => s

/-- The level a line stands at after events, standing at `v` before them. -/
def levelAfter (l : PeerLine) (v : Level) (es : List Event) : Level :=
  es.foldl (fun v e => (e.drives l).getD v) v

/-- Before which coming micro-step, counted from 0, the line first rises; none if it never does. -/
def firstRise (l : PeerLine) : Level → List (List Event) → Option Nat
  | _, [] => none
  | v, es :: rest => if risesIn l v es then some 0 else (firstRise l (levelAfter l v es) rest).map (· + 1)

/-- R138, R140: where the peer stands when a `SendByte` whose SB1 comes next has returned, under `Acknowledged` without
readback; none if `OTKN` never rises after SB3. SB1 to SB3 are three turns, SB4 the next; SB5 ends with its first turn at
which the edge has come; SB6 to SB8 follow. -/
def afterSend (s : State) : Option State :=
  (firstRise .otkn (peerAfter 3 s).otkn (peerAfter 3 s).env).map fun r => peerAfter (7 + max 1 r) s

/-- The same after `n` such calls, `gap` turns after each. -/
def afterSends (gap : Nat) : Nat → State → Option State
  | 0, s => some s
  | n + 1, s => (afterSend s).bind fun u => afterSends gap n (peerAfter gap u)

/-- Where the peer stands after `n` bytes of a download under `Acknowledged` without readback (43_download.md R177): DL1 to
DL4 come before the first, DL5 and DL4, or DL5 and DL6, after each. -/
def afterFrameBytes (n : Nat) (s : State) : Option State := afterSends 2 n (peerAfter 4 s)

/-- `IRDY` as the test of DRAIN after its `j`-th byte, counted from 0, sees it (44_inbound_reader.md R191): DR1, DR2, then
nine turns a byte, DR5 the last of them. -/
def irdyAtTest (j : Nat) (s : State) : Level := (peerAfter (11 + 9 * j) s).irdy

/-- The peer's Byte as RB2 of DRAIN's `j`-th byte, counted from 0, samples it. -/
def byteOfDrain (j : Nat) (s : State) : Byte := (peerAfter (5 + 9 * j) s).pdata

/-! ### Readings of a trace -/

/-- An event of the engine or of the host's sink, none of the peer's or of a neighbour's (95_test_vectors.md S8: "with the
peer: events removed"). -/
def TraceEvent.ofEngine : TraceEvent → Bool
  | .peer _ _ => false
  | .heartbeat => false
  | _ => true

/-- A trace without the peer's and the neighbours' events. -/
def engineTrace (tr : List TraceEvent) : List TraceEvent := tr.filter TraceEvent.ofEngine

/-- `TX` of a trace that starts with `DOUT = d` (00_scope.md R13): the values of `DOUT` at each `ORDY+`. -/
def txFrom : Byte → List TraceEvent → List Byte
  | _, [] => []
  | _, .drove b :: tr => txFrom b tr
  | d, .asserted .ordy :: tr => d :: txFrom d tr
  | _, .reset :: tr => txFrom 0#8 tr
  | d, _ :: tr => txFrom d tr

/-- The trace of one byte sent without readback (42_handshake.md R138). -/
def byteTrace (b : Byte) : List TraceEvent := [.drove b, .asserted .ordy, .deasserted .ordy]

/-- The trace of one byte sent without readback and acknowledged as `pulseAt k` does. -/
def pulseTrace (b : Byte) (k : Nat) : List TraceEvent :=
  if k = 0 then [.drove b, .peer .otkn .active, .peer .otkn .inactive, .asserted .ordy, .deasserted .ordy]
  else [.drove b, .asserted .ordy, .peer .otkn .active, .peer .otkn .inactive, .deasserted .ordy]

/-- The trace of one readback that samples `v` (42_handshake.md R138, SB7). -/
def readbackTrace (v : Byte) : List TraceEvent :=
  [.deasserted .csho, .direction .input, .asserted .cspi, .sampled v, .deasserted .cspi, .direction .output,
    .asserted .csho]

/-! ### The frame as a whole -/

/-- The payload Bytes (20_memory.md R60). -/
def payloadBytes (s : State) : List Byte := (List.range s.plen).map s.pay.byteAt

/-- The wire frame (43_download.md R174), bit-exact; its first byte is 0xAA. -/
def wireFrame (s : State) : List Byte :=
  [0xAA#8, (encodeWord s.loadAddr).1, (encodeWord s.loadAddr).2,
    (encodeWord (BitVec.ofNat 16 s.plen)).1, (encodeWord (BitVec.ofNat 16 s.plen)).2]
    ++ payloadBytes s ++ [(encodeWord s.execAddr).1, (encodeWord s.execAddr).2]

/-! ### Reset values -/

/-- Every piece of engine state has its value of R47. -/
def engineAtReset (s : State) : Prop :=
  (s.dout = 0x00#8 ∧ s.din = 0x00#8 ∧ s.loadAddr = 0x0000#16 ∧ s.execAddr = 0x0000#16 ∧ s.length = 0x0000#16)
    ∧ (s.cur = 0x00000000#32 ∧ s.idx = 0#17 ∧ s.seq = [] ∧ s.ofsm = .idle ∧ s.ifsm = .idle)
    ∧ (s.owner = .none ∧ s.dir = .input ∧ s.strat = .pulseTimed ∧ s.rben = false ∧ s.run = .ready)
    ∧ (s.res = 0#3 ∧ s.errstat = 0x00#8 ∧ s.rbsent = 0x00#8 ∧ s.rbread = 0x00#8 ∧ s.rbcnt = 0#16 ∧ s.drainCnt = 0)
    ∧ (s.ackEdge = false ∧ s.rdyEdge = false ∧ s.inbuf = [])
    ∧ (s.ordy = .inactive ∧ s.itkn = .inactive ∧ s.csho = .inactive ∧ s.cspi = .inactive)

/-- A check on the next state of a result; false of a fault or a refusal. -/
def nextSatisfies (r : Result) (p : State → Bool) : Bool :=
  match r with
  | .next t => p t
  | _ => false

end Sys2Proof.Machine
end

