-- ==== Sys2Proof/Certificates/Slice0/Obligations.lean ====
section
/-! DEFINITION. The statements about the machine, each after the rule of the spec it formalises or rests on. In every
statement about a command, `peerOnly s` says that in what is to come only the peer and the heartbeat act, in any way
whatever, and `s1` is the state once the events due before the command's first micro-step have landed. The schedule of
those events (`env`) and the trace are how the model writes down what 00_scope.md R9 and R13 describe (logs 1 and 8). -/

open Sys2Proof Sys2Proof.Machine

/-! ### Encoding -/

/-- Decode and encode agree: every legal command, every operand value (spec 30_encoding.md, sections 2 to 4). -/
def Obligations.DecodeReadsBackEveryCommand : Prop :=
  ∀ i : Instr, i.wellFormed = true → decode (encode i) = .ok i

/-- R87: the legal words, and the command each one is; every other word is illegal. -/
def Obligations.LegalWordsAndTheirCommands : Prop :=
  ∀ (w : CmdWord) (i : Instr), decode w = .ok i ↔
    match i with
    | .claim .hostOutput .output => w.toNat = 0x16000000
    | .claim .peerInput .input => w.toNat = 0x18000000
    | .claim _ _ => False
    | .release .hostOutput => w.toNat = 0x24000000
    | .release .peerInput => w.toNat = 0x28000000
    | .release .none => False
    | .sendb b => w.toNat = 0x30000000 + b.toNat
    | .sendw x => w.toNat = 0x40000000 + x.toNat
    | .recvb => w.toNat = 0x50000000
    | .drain => w.toNat = 0x60000000
    | .stratack => w.toNat = 0x70000000
    | .setload x => w.toNat = 0x80000000 + x.toNat
    | .setexec x => w.toNat = 0x90000000 + x.toNat
    | .setlen x => w.toNat = 0xA0000000 + x.toNat
    | .dload => w.toNat = 0xB0000000
    | .dloadi => w.toNat = 0xC0000000
    | .setrb v => w.toNat = 0xD0000000 + v.toNat
    | .take => w.toNat = 0xE0000000

/-- R209: a word that is no legal command is put on record as `IllegalCommand` and does nothing else. -/
def Obligations.IllegalWordIsOnlyRecorded : Prop :=
  ∀ (s : State) (w : CmdWord), s.run = .ready → peerOnly s = true → (∀ i, decode w ≠ .ok i) →
    ∃ s1, letEnvAct s = .next s1 ∧
      acceptWord w s = .next { s1 with
        cur := w, res := 6#3, errstat := s1.errstat ||| 0x40#8, run := .ready, seq := [] }

/-- Words written out from the encoding tables (95_test_vectors.md) decode to their commands. -/
def Obligations.WordsOfTheTableDecode : Prop :=
  decode 0x16000000#32 = .ok (.claim .hostOutput .output) ∧ decode 0x28000000#32 = .ok (.release .peerInput)
    ∧ decode 0x300000AA#32 = .ok (.sendb 0xAA#8) ∧ decode 0x40000200#32 = .ok (.sendw 0x0200#16)
    ∧ decode 0xA0000102#32 = .ok (.setlen 0x0102#16) ∧ decode 0xD0000001#32 = .ok (.setrb true)
    ∧ decode 0x1A000000#32 = .error .crossedClaim ∧ decode 0x34000048#32 = .error .strayBits

/-! ### The step -/

/-- A step runs the decoded command: the events that are due land, and the word the host presents is taken out of its
stream and executed (the model's step, log 3). -/
def Obligations.StepRunsTheDecodedCommand : Prop :=
  ∀ (s s1 : State) (w : CmdWord) (rest : List HostAct) (i : Instr),
    hostLooks s = false → letEnvAct s = .next s1 → s1.run = .ready → s1.host = .command w :: rest →
    decode w = .ok i → step s = exec i { s1 with host := rest }

/-- While a command is in progress a step is one micro-step (the model's step, log 3). -/
def Obligations.BusyStepIsOneMicroStep : Prop :=
  ∀ s s1 : State, hostLooks s = false → letEnvAct s = .next s1 → s1.run = .busy → step s = microStep s

/-- The word placed for the next step is executed by it (the model's `withFetchWord`, log 17). -/
def Obligations.PlacedWordIsExecutedNext : Prop :=
  ∀ (s : State) (w : CmdWord) (i : Instr), s.run = .ready → decode w = .ok i →
    step (s.withFetchWord 32 w.toNat) = exec i s

/-- R81: outside `Ready` no command is accepted. -/
def Obligations.NoCommandOutsideReady : Prop :=
  ∀ (i : Instr) (s : State), s.run ≠ .ready → exec i s = .refused .commandNotEnabled

/-- The model never cuts a command short: when only the peer acts, `exec` answers with the command ended, or, with no event
left to come, with the engine at the acknowledged wait and no edge latched (42_handshake.md R140), or at DRAIN's loop test
and "data ready" active (44_inbound_reader.md R194; the model's `exec`, log 3). -/
def Obligations.CommandEndsOrAwaitsThePeer : Prop :=
  ∀ (i : Instr) (s t : State), peerOnly s = true → exec i s = .next t →
    t.run = .ready ∨
      (t.run = .busy ∧ t.env = [] ∧
        ((∃ (b : Byte) (rest : List Label), t.seq = .sb5 b :: rest ∧ t.strat = .acknowledged ∧ t.ackEdge = false) ∨
          (∃ rest : List Label, t.seq = .dr5 :: rest ∧ t.irdy = .active)))

/-- What the peer and the heartbeat can touch (10_state.md section 7): their own lines, the edge latches (only setting
them) and the trace. -/
def Obligations.PeerTouchesOnlyItsOwnState : Prop :=
  ∀ s t : State, peerOnly s = true → letEnvAct s = .next t →
    t = { s with otkn := t.otkn, irdy := t.irdy, pdata := t.pdata, ackEdge := t.ackEdge, rdyEdge := t.rdyEdge,
                 trace := t.trace, env := t.env }
      ∧ (s.ackEdge = true → t.ackEdge = true) ∧ (s.rdyEdge = true → t.rdyEdge = true)
      ∧ engineTrace t.trace = engineTrace s.trace ∧ t.env = s.env.tail

/-! ### Reset and the invariant -/

/-- R47: the machine right after reset (the engine's part; the spec leaves the peer's variables unspecified). -/
def Obligations.ResetStateHasTheSpecsValues : Prop := engineAtReset State.reset

/-- R240: the reset input gives every piece of engine state its value, in any run state, and drops the command. -/
def Obligations.ResetInputRestoresTheEngine : Prop :=
  ∀ s : State, ∃ t, applyEvent .reset s = .next t ∧ engineAtReset t
    ∧ t.otkn = s.otkn ∧ t.irdy = s.irdy ∧ t.pdata = s.pdata

/-- The invariant holds at reset. -/
def Obligations.InvariantHoldsAtReset : Prop := invariant State.reset = true

/-- Every step keeps the invariant, and so does every micro-step inside one (10_state.md section 5, R45 and the
sequencer's positions). -/
def Obligations.EveryStepKeepsTheInvariant : Prop :=
  ∀ s t : State, invariant s = true → (step s = .next t ∨ microStep s = .next t) → invariant t = true

/-- Under the invariant no step faults: no payload access leaves `0 .. PLEN - 1` (20_memory.md section 1). -/
def Obligations.NoFaultUnderTheInvariant : Prop :=
  ∀ (s : State) (f : Fault), invariant s = true → step s ≠ .fault f

/-- While "data ready" is active the bus is held for output and the byte offered stands on the lines (42_handshake.md
section 3; R139 is marked derived there). -/
def Obligations.DataStandWhileReadyIsActive : Prop :=
  ∀ s : State, invariant s = true → s.ordy = .active →
    s.run = .busy ∧ s.owner = .hostOutput ∧ s.dir = .output ∧ s.csho = .active ∧ s.cspi = .inactive
      ∧ dataLines s = some (encodeLevels Config.orderOut s.dout)
      ∧ ∃ (b : Byte) (rest : List Label), s.dout = b ∧ (s.seq = .sb5 b :: rest ∨ s.seq = .sb6 b :: rest)

/-! ### Arbiter -/

/-- R102, R103: CLAIM of a free bus takes it, reconfiguring only where the direction differs, chip-select last; of an owned
bus it is a `ContentionError` that writes nothing in the arbiter. -/
def Obligations.ClaimCommandEffect : Prop :=
  ∀ (s : State) (o : Owner) (d : Dir), legalClaim o d = true → s.run = .ready → peerOnly s = true →
    ∃ s1, letEnvAct s = .next s1 ∧
      (s.owner = .none → exec (.claim o d) s = .next { s1 with
        owner := o, dir := d
        csho := if o = .hostOutput then .active else s1.csho
        cspi := if o = .peerInput then .active else s1.cspi
        cur := encode (.claim o d), res := 0#3, run := .ready, seq := []
        trace := s1.trace ++ (if s1.dir = d then [] else [.direction d])
          ++ [.asserted (if o = .hostOutput then .csho else .cspi)] }) ∧
      (s.owner ≠ .none → exec (.claim o d) s = .next { s1 with
        cur := encode (.claim o d), res := 1#3, errstat := s1.errstat ||| 0x02#8, run := .ready, seq := [] })

/-- R107, R108: RELEASE by the owner drops the chip-select, frees the bus and turns the lines to `Input`; by anyone else it
is an `OwnershipError` that writes nothing in the arbiter. -/
def Obligations.ReleaseCommandEffect : Prop :=
  ∀ (s : State) (o : Owner), legalRelease o = true → s.run = .ready → peerOnly s = true →
    ∃ s1, letEnvAct s = .next s1 ∧
      (s.owner = o → exec (.release o) s = .next { s1 with
        owner := .none, dir := .input
        csho := if o = .hostOutput then .inactive else s1.csho
        cspi := if o = .peerInput then .inactive else s1.cspi
        cur := encode (.release o), res := 0#3, run := .ready, seq := []
        trace := s1.trace ++ [.deasserted (if o = .hostOutput then .csho else .cspi)]
          ++ (if s1.dir = .input then [] else [.direction .input]) }) ∧
      (s.owner ≠ o → exec (.release o) s = .next { s1 with
        cur := encode (.release o), res := 2#3, errstat := s1.errstat ||| 0x04#8, run := .ready, seq := [] })

/-- R100: nothing but the arbiter's procedures, CANCEL and reset writes `OWNER`, `DIR`, `CSHO`, `CSPI`; the last two force
them to their idle values (CANCEL has no effect in `Halted`). -/
def Obligations.OnlyTheArbiterWritesTheBus : Prop :=
  (∀ (l : Label) (s t : State), callsArbiter l = false → micro l s = .next t →
      t.owner = s.owner ∧ t.dir = s.dir ∧ t.csho = s.csho ∧ t.cspi = s.cspi) ∧
    (∀ (e : Event) (s t : State), e ≠ .cancel → e ≠ .reset → applyEvent e s = .next t →
      t.owner = s.owner ∧ t.dir = s.dir ∧ t.csho = s.csho ∧ t.cspi = s.cspi) ∧
    (∀ (e : Event) (s t : State), e = .reset ∨ (e = .cancel ∧ s.run ≠ .halted ∧ arbiterOk s = true) →
      applyEvent e s = .next t → t.owner = .none ∧ t.dir = .input ∧ t.csho = .inactive ∧ t.cspi = .inactive)

/-! ### Register-writing commands -/

/-- R171, R172, R173: SETLOAD, SETEXEC and SETLEN write their register and `RES`, nothing else. -/
def Obligations.OperandRegisterCommands : Prop :=
  ∀ (s : State) (x : Word), s.run = .ready → peerOnly s = true →
    ∃ s1, letEnvAct s = .next s1 ∧
      exec (.setload x) s = .next { s1 with
        loadAddr := x, cur := encode (.setload x), res := 0#3, run := .ready, seq := [] } ∧
      exec (.setexec x) s = .next { s1 with
        execAddr := x, cur := encode (.setexec x), res := 0#3, run := .ready, seq := [] } ∧
      exec (.setlen x) s = .next { s1 with
        length := x, cur := encode (.setlen x), res := 0#3, run := .ready, seq := [] }

/-- R160: SETRB writes `RBEN` in either strategy. -/
def Obligations.ReadbackSwitchCommand : Prop :=
  ∀ (s : State) (v : Bool), s.run = .ready → peerOnly s = true →
    ∃ s1, letEnvAct s = .next s1 ∧
      exec (.setrb v) s = .next { s1 with
        rben := v, cur := encode (.setrb v), res := 0#3, run := .ready, seq := [] }

/-- R158: STRATACK switches the strategy once; a second switch is a `PreconditionError`. -/
def Obligations.StrategySwitchCommand : Prop :=
  ∀ s : State, s.run = .ready → peerOnly s = true →
    ∃ s1, letEnvAct s = .next s1 ∧
      (s.strat = .pulseTimed → exec .stratack s = .next { s1 with
        strat := .acknowledged, cur := encode .stratack, res := 0#3, run := .ready, seq := [] }) ∧
      (s.strat = .acknowledged → exec .stratack s = .next { s1 with
        cur := encode .stratack, res := 7#3, errstat := s1.errstat ||| 0x80#8, run := .ready, seq := [] })

/-- R33: no other command changes the strategy, and without a reset nothing takes it back to `PulseTimed`. -/
def Obligations.StrategyGoesOneWay : Prop :=
  (∀ (i : Instr) (s t : State), i ≠ .stratack → noReset s = true → exec i s = .next t → t.strat = s.strat) ∧
    (∀ s t : State, noReset s = true → s.strat = .acknowledged → step s = .next t → t.strat = .acknowledged)

/-- R197: TAKE delivers the whole buffer to the sink, in order, and empties it. -/
def Obligations.TakeDeliversTheBuffer : Prop :=
  ∀ s : State, s.run = .ready → peerOnly s = true →
    ∃ s1, letEnvAct s = .next s1 ∧
      exec .take s = .next { s1 with
        inbuf := [], trace := s1.trace ++ [.sink s.inbuf]
        cur := encode .take, res := 0#3, run := .ready, seq := [] }

/-! ### Sending -/

/-- Under `PulseTimed` a SENDB with the bus held for output ends whatever the peer does, reads no acknowledge, makes no
readback and sends its byte with one strobe (42_handshake.md section 3, `SendByte` with the timed wait). -/
def Obligations.TimedByteIsSentWhateverThePeerDoes : Prop :=
  ∀ (s : State) (b : Byte), s.run = .ready → peerOnly s = true → s.owner = .hostOutput → s.dir = .output →
    s.strat = .pulseTimed →
    ∃ t, exec (.sendb b) s = .next t ∧ t.run = .ready ∧ t.res = 0#3 ∧ t.cur = encode (.sendb b) ∧ t.dout = b
      ∧ t.ofsm = .idle ∧ t.ordy = .inactive
      ∧ engineTrace t.trace = engineTrace s.trace ++ byteTrace b

/-- Under `PulseTimed` a SENDW sends the high Byte, then the low Byte, one strobe each (42_handshake.md section 3,
`SendWord` with the timed wait). -/
def Obligations.TimedWordIsSentHighByteFirst : Prop :=
  ∀ (s : State) (x : Word), s.run = .ready → peerOnly s = true → s.owner = .hostOutput → s.dir = .output →
    s.strat = .pulseTimed →
    ∃ t, exec (.sendw x) s = .next t ∧ t.run = .ready ∧ t.res = 0#3 ∧ t.cur = encode (.sendw x)
      ∧ t.dout = (encodeWord x).2 ∧ t.ofsm = .idle ∧ t.ordy = .inactive
      ∧ engineTrace t.trace = engineTrace s.trace ++ byteTrace (BitVec.ofNat 8 (x.toNat / 256))
          ++ byteTrace (BitVec.ofNat 8 (x.toNat % 256))

/-- Under `Acknowledged` without readback SENDB and SENDW wait as long as it takes; a pulse with no micro-step inside it
ends the wait for its byte, at whatever turn after SB3 it comes, between SB3 and SB4 too (42_handshake.md R131, R138,
R140, R147). -/
def Obligations.NarrowPulseEndsTheWait : Prop :=
  ∀ (s : State) (k : Nat), s.run = .ready → s.owner = .hostOutput → s.dir = .output →
    s.strat = .acknowledged → s.rben = false → s.otkn = .inactive →
    (s.env = pulseAt k → ∀ b : Byte,
      exec (.sendb b) s = .next { s with
        dout := b, ackEdge := true, ofsm := .idle, ordy := .inactive
        cur := encode (.sendb b), res := 0#3, run := .ready, seq := [], env := []
        trace := s.trace ++ pulseTrace b k }) ∧
    (∀ (m : Nat) (x : Word), s.env = pulsesAt k m →
      exec (.sendw x) s = .next { s with
        dout := (encodeWord x).2, ackEdge := true, ofsm := .idle, ordy := .inactive
        cur := encode (.sendw x), res := 0#3, run := .ready, seq := [], env := []
        trace := s.trace ++ pulseTrace (encodeWord x).1 k ++ pulseTrace (encodeWord x).2 m })

/-- Under `Acknowledged` without readback, whatever else the peer does: if `OTKN` rises after SB3 of each byte, SENDB and
SENDW end, at the turn `afterSend` names, with each byte sent by one strobe, high Byte first; but for the peer's variables
nothing else changes (42_handshake.md R138, R140, R146 to R148). -/
def Obligations.AcknowledgedSendsEndOnTheirEdges : Prop :=
  ∀ s u : State, s.run = .ready → peerOnly s = true → s.owner = .hostOutput → s.dir = .output →
    s.strat = .acknowledged → s.rben = false →
    (afterSend s = some u → ∀ b : Byte, ∃ t, exec (.sendb b) s = .next t
      ∧ t = { s with
          dout := b, ackEdge := true, ofsm := .idle, ordy := .inactive
          cur := encode (.sendb b), res := 0#3, run := .ready, seq := []
          otkn := t.otkn, irdy := t.irdy, pdata := t.pdata, rdyEdge := t.rdyEdge, trace := t.trace, env := u.env.tail }
      ∧ engineTrace t.trace = engineTrace s.trace ++ byteTrace b) ∧
    (afterSends 0 2 s = some u → ∀ x : Word, ∃ t, exec (.sendw x) s = .next t
      ∧ t = { s with
          dout := (encodeWord x).2, ackEdge := true, ofsm := .idle, ordy := .inactive
          cur := encode (.sendw x), res := 0#3, run := .ready, seq := []
          otkn := t.otkn, irdy := t.irdy, pdata := t.pdata, rdyEdge := t.rdyEdge, trace := t.trace, env := u.env.tail }
      ∧ engineTrace t.trace = engineTrace s.trace ++ byteTrace (BitVec.ofNat 8 (x.toNat / 256))
          ++ byteTrace (BitVec.ofNat 8 (x.toNat % 256)))

/-- With readback enabled the acknowledged SENDB samples the peer's port and gives the bus back as it was; a differing byte
is recorded and does not become the command's result (42_handshake.md section 3, SB7 and `RecordMismatch`). -/
def Obligations.ReadbackComparesAndRestoresTheBus : Prop :=
  ∀ (s : State) (b : Byte) (k : Nat), s.run = .ready → arbiterOk s = true → s.owner = .hostOutput →
    s.strat = .acknowledged → s.rben = true → s.otkn = .inactive → s.env = pulseAt k →
    exec (.sendb b) s = .next { s with
      dout := b, ackEdge := true, ofsm := .idle, ordy := .inactive
      errstat := if s.pdata = b then s.errstat else s.errstat ||| 0x10#8
      rbsent := if s.pdata = b then s.rbsent else b
      rbread := if s.pdata = b then s.rbread else s.pdata
      rbcnt := if s.pdata = b then s.rbcnt else BitVec.ofNat 16 (min (s.rbcnt.toNat + 1) 0xFFFF)
      cur := encode (.sendb b), res := 0#3, run := .ready, seq := [], env := []
      trace := s.trace ++ pulseTrace b k ++ readbackTrace s.pdata }

/-- R140, R258: an acknowledged send whose edge never comes after SB3, whatever else the peer does and at whatever level
`OTKN` stands, waits for ever once the peer is done, "data ready" active and the bus held; there is no timeout. A SENDW so
waits at its first byte, or at its second. -/
def Obligations.UnacknowledgedSendStallsForEver : Prop :=
  ∀ s : State, s.run = .ready → peerOnly s = true → s.owner = .hostOutput → s.dir = .output →
    s.strat = .acknowledged →
    (afterSend s = none → ∀ b : Byte, ∃ t, exec (.sendb b) s = .next t ∧ t.seq = [.sb5 b, .complete] ∧ t.dout = b
      ∧ t.run = .busy ∧ t.ofsm = .readyAsserted ∧ t.ordy = .active ∧ t.ackEdge = false ∧ t.owner = .hostOutput
      ∧ ∀ n, Sys2Proof.core.run n t = .next t) ∧
    (afterSend s = none → ∀ x : Word, ∃ t, exec (.sendw x) s = .next t
      ∧ t.seq = [.sb5 (encodeWord x).1, .sb1 (encodeWord x).2, .complete] ∧ t.dout = (encodeWord x).1
      ∧ t.run = .busy ∧ t.ofsm = .readyAsserted ∧ t.ordy = .active ∧ t.ackEdge = false ∧ t.owner = .hostOutput
      ∧ ∀ n, Sys2Proof.core.run n t = .next t) ∧
    (∀ u, s.rben = false → afterSend s = some u → afterSend u = none → ∀ x : Word, ∃ t, exec (.sendw x) s = .next t
      ∧ t.seq = [.sb5 (encodeWord x).2, .complete] ∧ t.dout = (encodeWord x).2
      ∧ t.run = .busy ∧ t.ofsm = .readyAsserted ∧ t.ordy = .active ∧ t.ackEdge = false ∧ t.owner = .hostOutput
      ∧ ∀ n, Sys2Proof.core.run n t = .next t)

/-- R210: the stated preconditions, each broken: the error on record, nothing else changed. -/
def Obligations.BrokenPreconditionsAreRecorded : Prop :=
  ∀ s : State, s.run = .ready → peerOnly s = true →
    ∃ s1, letEnvAct s = .next s1 ∧
      (¬ (s.owner = .hostOutput ∧ s.dir = .output) →
        (∀ b, exec (.sendb b) s = .next { s1 with
          cur := encode (.sendb b), res := 7#3, errstat := s1.errstat ||| 0x80#8, run := .ready, seq := [] }) ∧
        (∀ x, exec (.sendw x) s = .next { s1 with
          cur := encode (.sendw x), res := 7#3, errstat := s1.errstat ||| 0x80#8, run := .ready, seq := [] })) ∧
      (¬ (s.owner = .peerInput ∧ s.dir = .input) ∨ s1.irdy = .inactive →
        exec .recvb s = .next { s1 with
          cur := encode .recvb, res := 7#3, errstat := s1.errstat ||| 0x80#8, run := .ready, seq := [] }) ∧
      (s.strat = .acknowledged →
        exec .stratack s = .next { s1 with
          cur := encode .stratack, res := 7#3, errstat := s1.errstat ||| 0x80#8, run := .ready, seq := [] })

/-! ### Edge detectors -/

/-- R131, R133: a latch is set by a peer's inactive-to-active change, however short the level lasts, in any run state; a
level that is no change, and a change to inactive, do nothing to it. -/
def Obligations.EdgesAreLatchedByThePeersEvents : Prop :=
  ∀ (es : List Event) (s t : State), es.all Event.ofPeer = true → applyEvents es s = .next t →
    t.ackEdge = (s.ackEdge || risesIn .otkn s.otkn es) ∧ t.rdyEdge = (s.rdyEdge || risesIn .irdy s.irdy es)

/-- R132: `ACKEDGE` is cleared by SB3, CANCEL and reset, and by nothing else: no other micro-step changes it, no other event
takes it from 1 to 0. So is `RDYEDGE` by RB2, CANCEL and reset. -/
def Obligations.LatchesAreClearedNowhereElse : Prop :=
  (∀ (l : Label) (s t : State), micro l s = .next t →
      ((∀ b, l ≠ .sb3 b) → t.ackEdge = s.ackEdge) ∧ (l ≠ .rb2 → t.rdyEdge = s.rdyEdge)) ∧
    (∀ (b : Byte) (s t : State), micro (.sb3 b) s = .next t → t.ackEdge = false) ∧
    (∀ s t : State, micro .rb2 s = .next t → t.rdyEdge = false) ∧
    (∀ (e : Event) (s t : State), e ≠ .cancel → e ≠ .reset → applyEvent e s = .next t →
      (s.ackEdge = true → t.ackEdge = true) ∧ (s.rdyEdge = true → t.rdyEdge = true)) ∧
    (∀ (e : Event) (s t : State), e = .reset ∨ (e = .cancel ∧ s.run ≠ .halted) → applyEvent e s = .next t →
      t.ackEdge = false ∧ t.rdyEdge = false)

/-! ### Receiving -/

/-- R152, R155: RECVB with the bus held for peer input and "data ready" active at its test always ends, whatever the peer
does: it latches and appends the peer's Byte as it stands at RB2, its third turn, and pulses "data taken"; `RDYEDGE`, cleared
at RB2, tells whether `IRDY` rose in the five turns after; but for the peer's variables nothing else changes. -/
def Obligations.ReceivedByteIsLatchedAndAppended : Prop :=
  ∀ s : State, s.run = .ready → peerOnly s = true → s.owner = .peerInput → s.dir = .input →
    (peerAfter 1 s).irdy = .active →
    ∃ t, exec .recvb s = .next t
      ∧ t = { s with
          din := (peerAfter 3 s).pdata, inbuf := s.inbuf ++ [(peerAfter 3 s).pdata], ifsm := .idle, itkn := .inactive
          rdyEdge := risesIn .irdy (peerAfter 3 s).irdy ((peerAfter 3 s).env.take 5).flatten
          cur := encode .recvb, res := 0#3, run := .ready, seq := []
          otkn := t.otkn, irdy := t.irdy, pdata := t.pdata, ackEdge := t.ackEdge, trace := t.trace, env := s.env.drop 8 }
      ∧ (s.ackEdge = true → t.ackEdge = true)
      ∧ engineTrace t.trace = engineTrace s.trace
          ++ [.sampled (peerAfter 3 s).pdata, .asserted .itkn, .deasserted .itkn]

/-- DRAIN with "data ready" inactive ends at once, whoever owns the bus, with `DRAINCNT` cleared and no line event
(44_inbound_reader.md section on R190 to R192). -/
def Obligations.EmptyDrainHasNoEffect : Prop :=
  ∀ s s1 : State, s.run = .ready → peerOnly s = true → letEnvAct s = .next s1 → s1.irdy = .inactive →
    exec .drain s = .next { s1 with
      drainCnt := 0, cur := encode .drain, res := 0#3, run := .ready, seq := [] }

/-- DRAIN returns the whole run of bytes in arrival order, whatever the peer does: if "data ready" is active at DR1 and at
the first `k` tests at DR5 and inactive at the next, `k + 1` bytes are read, each as the peer presents it at its RB2, and
the bus is given back (44_inbound_reader.md R191, R193, R195). -/
def Obligations.DrainReturnsTheRunInOrder : Prop :=
  ∀ (s : State) (k : Nat), s.run = .ready → peerOnly s = true → s.owner = .none → arbiterOk s = true →
    (peerAfter 1 s).irdy = .active → (∀ j, j < k → irdyAtTest j s = .active) → irdyAtTest k s = .inactive →
    ∃ t, exec .drain s = .next t ∧ t.run = .ready ∧ t.res = 0#3 ∧ t.cur = encode .drain
      ∧ t.inbuf = s.inbuf ++ (List.range (k + 1)).map (fun j => byteOfDrain j s)
      ∧ t.drainCnt = k + 1 ∧ t.din = byteOfDrain k s
      ∧ t.owner = .none ∧ t.dir = .input ∧ t.csho = .inactive ∧ t.cspi = .inactive ∧ t.itkn = .inactive ∧ t.ifsm = .idle
      ∧ t.env = s.env.drop (12 + 9 * k)
      ∧ engineTrace t.trace = engineTrace s.trace ++ [.asserted .cspi]
          ++ (List.range (k + 1)).flatMap (fun j => [.sampled (byteOfDrain j s), .asserted .itkn, .deasserted .itkn])
          ++ [.deasserted .cspi]

/-- R194: while the peer keeps "data ready" active DRAIN never ends, and the buffer grows by a byte a turn. -/
def Obligations.DrainOfAnEndlessStreamNeverEnds : Prop :=
  ∀ s : State, s.run = .ready → s.owner = .none → s.irdy = .active → s.env = [] →
    ∃ t, exec .drain s = .next t ∧
      ∀ n, ∃ u, Sys2Proof.core.run (9 * n) t = .next u ∧ u.run = .busy ∧ u.drainCnt = n + 1
        ∧ u.inbuf = s.inbuf ++ List.replicate (n + 1) s.pdata

/-- R63: but for TAKE and reset, `INBUF` only grows at its end. -/
def Obligations.BufferOnlyGrowsAtItsEnd : Prop :=
  ∀ (i : Instr) (s t : State), i ≠ .take → noReset s = true → exec i s = .next t →
    ∃ bs, t.inbuf = s.inbuf ++ bs

/-! ### Downloads -/

/-- R174, R175: the bytes the sequencer computes are the wire frame, bit-exact. -/
def Obligations.FrameBytesAreTheWireFrame : Prop :=
  ∀ (s : State) (k : Nat), s.plen ≤ 65535 → k < s.plen + 7 →
    ∃ b, frameByte s.plen k s = .ok b ∧ (wireFrame s)[k]? = some b

/-- R60: the payload read back is the payload supplied, defined exactly below `PLEN`. -/
def Obligations.SuppliedPayloadReadsBack : Prop :=
  ∀ (bs : List Byte) (s : State) (i : Nat), readPay (supplyPay bs s) i = bs[i]?

/-- Under `PulseTimed` a DLOAD, or a DLOADI whose declared length is right, claims the free bus, sends the whole frame in
order with one strobe a byte whatever the peer does, and gives the bus back (43_download.md R177, R178, R180). -/
def Obligations.TimedDownloadSendsTheFrame : Prop :=
  ∀ (s : State) (i : Instr), (i = .dload ∨ (i = .dloadi ∧ s.length.toNat = s.plen)) →
    s.run = .ready → peerOnly s = true → s.strat = .pulseTimed → s.owner = .none → arbiterOk s = true →
    s.plen ≤ 65535 →
    ∃ t, exec i s = .next t ∧ t.run = .ready ∧ t.res = 0#3 ∧ t.cur = encode i ∧ t.idx.toNat = s.plen + 7
      ∧ t.owner = .none ∧ t.dir = .input ∧ t.csho = .inactive ∧ t.cspi = .inactive ∧ t.ordy = .inactive
      ∧ t.ofsm = .idle
      ∧ engineTrace t.trace = engineTrace s.trace ++ [.direction .output, .asserted .csho]
          ++ (wireFrame s).flatMap byteTrace ++ [.deasserted .csho, .direction .input]
      ∧ ∃ new, t.trace = s.trace ++ new ∧ txFrom s.dout new = wireFrame s

/-- Under `Acknowledged` without readback a DLOAD, or a DLOADI whose declared length is right, whatever else the peer does:
if `OTKN` rises after SB3 of every byte, the download ends having done on the lines exactly what it does under `PulseTimed`
(43_download.md R177, R178, R180; 42_handshake.md R140, R159). -/
def Obligations.AcknowledgedDownloadSendsTheFrame : Prop :=
  ∀ (s u : State) (i : Instr), (i = .dload ∨ (i = .dloadi ∧ s.length.toNat = s.plen)) →
    s.run = .ready → peerOnly s = true → s.strat = .acknowledged → s.rben = false → s.owner = .none →
    arbiterOk s = true → s.plen ≤ 65535 → afterFrameBytes (s.plen + 7) s = some u →
    ∃ t, exec i s = .next t ∧ t.run = .ready ∧ t.res = 0#3 ∧ t.cur = encode i ∧ t.idx.toNat = s.plen + 7
      ∧ t.owner = .none ∧ t.dir = .input ∧ t.csho = .inactive ∧ t.cspi = .inactive ∧ t.ordy = .inactive
      ∧ t.ofsm = .idle ∧ t.ackEdge = true ∧ t.env = u.env.tail
      ∧ engineTrace t.trace = engineTrace s.trace ++ [.direction .output, .asserted .csho]
          ++ (wireFrame s).flatMap byteTrace ++ [.deasserted .csho, .direction .input]
      ∧ ∃ new, t.trace = s.trace ++ new ∧ txFrom s.dout new = wireFrame s

/-- Under `Acknowledged` without readback a download whose `j`-th byte, counted from 0, is the first that the peer does not
acknowledge after its SB3 waits at that byte for ever, the bus held, `IDX` telling how many were sent (43_download.md
R177, R184; 42_handshake.md R140). -/
def Obligations.DownloadStallsAtItsFirstUnacknowledgedByte : Prop :=
  ∀ (s u : State) (i : Instr) (j : Nat), (i = .dload ∨ (i = .dloadi ∧ s.length.toNat = s.plen)) →
    s.run = .ready → peerOnly s = true → s.strat = .acknowledged → s.rben = false → s.owner = .none →
    arbiterOk s = true → s.plen ≤ 65535 → j < s.plen + 7 → afterFrameBytes j s = some u → afterSend u = none →
    ∃ t b, exec i s = .next t ∧ (wireFrame s)[j]? = some b ∧ t.seq = [.sb5 b, .dl5 s.plen] ∧ t.dout = b
      ∧ t.idx.toNat = j ∧ t.run = .busy ∧ t.owner = .hostOutput ∧ t.dir = .output ∧ t.csho = .active
      ∧ t.ordy = .active ∧ t.ofsm = .readyAsserted ∧ t.ackEdge = false
      ∧ engineTrace t.trace = engineTrace s.trace ++ [.direction .output, .asserted .csho]
          ++ ((wireFrame s).take j).flatMap byteTrace ++ [.drove b, .asserted .ordy]
      ∧ ∀ n, Sys2Proof.core.run n t = .next t

/-- A download with readback sends every byte of its frame whatever the peer echoes; each mismatch is counted and recorded,
none becomes the command's result (43_download.md R177; 42_handshake.md R143, R144; 60_exceptions.md R207). -/
def Obligations.MismatchesNeverStopADownload : Prop :=
  ∀ (s : State) (echo : List Byte), s.run = .ready → s.strat = .acknowledged → s.rben = true → s.owner = .none →
    arbiterOk s = true → s.otkn = .inactive → s.plen ≤ 65535 → echo.length = s.plen + 7 →
    s.env = [[], [], []] ++ echo.flatMap echoTurn →
    ∃ t, exec .dload s = .next t ∧ t.run = .ready ∧ t.res = 0#3 ∧ t.idx.toNat = s.plen + 7 ∧ t.owner = .none
      ∧ t.rbcnt.toNat = min (s.rbcnt.toNat + ((wireFrame s).zip echo).countP (fun p => p.1 != p.2)) 0xFFFF
      ∧ t.errstat = (if wireFrame s = echo then s.errstat else s.errstat ||| 0x10#8)
      ∧ engineTrace t.trace = engineTrace s.trace ++ [.direction .output, .asserted .csho]
          ++ ((wireFrame s).zip echo).flatMap (fun p => byteTrace p.1 ++ readbackTrace p.2)
          ++ [.deasserted .csho, .direction .input]

/-- R180: DLOADI, once its check has passed, does what DLOAD does: sends, waits, stalls and fails alike. -/
def Obligations.CheckedDownloadIsTheDownload : Prop :=
  ∀ s : State, s.run = .ready → peerOnly s = true → s.length.toNat = s.plen →
    ∃ t, exec .dload s = .next t ∧ exec .dloadi s = .next { t with cur := encode .dloadi }

/-- R176, R180, R206: the format errors, before any claim and whoever owns the bus: nothing is sent. -/
def Obligations.FormatErrorsComeBeforeTheClaim : Prop :=
  ∀ s : State, s.run = .ready → peerOnly s = true →
    ∃ s1, letEnvAct s = .next s1 ∧
      (65535 < s.plen → exec .dload s = .next { s1 with
        cur := encode .dload, res := 3#3, errstat := s1.errstat ||| 0x08#8, run := .ready, seq := [] }) ∧
      (65535 < s.plen ∨ s.length.toNat ≠ s.plen → exec .dloadi s = .next { s1 with
        cur := encode .dloadi, res := 3#3, errstat := s1.errstat ||| 0x08#8, run := .ready, seq := [] })

/-- R204, R179: a download or a drain that finds the bus owned, by whichever owner, is a `ContentionError`: nothing is
sent or read, and the owner keeps the bus. -/
def Obligations.OwnedBusStopsDownloadAndDrain : Prop :=
  ∀ s s1 s2 : State, s.run = .ready → peerOnly s = true → s.owner ≠ .none → letEnvAct s = .next s1 →
    letEnvAct s1 = .next s2 →
      (s.plen ≤ 65535 → exec .dload s = .next { s2 with
        cur := encode .dload, res := 1#3, errstat := s2.errstat ||| 0x02#8, run := .ready, seq := [] }) ∧
      (s.length.toNat = s.plen → exec .dloadi s = .next { s2 with
        cur := encode .dloadi, res := 1#3, errstat := s2.errstat ||| 0x02#8, run := .ready, seq := [] }) ∧
      (s1.irdy = .active → exec .drain s = .next { s2 with
        drainCnt := 0, cur := encode .drain, res := 1#3, errstat := s2.errstat ||| 0x02#8, run := .ready, seq := [] })

/-- R61: a payload changed while a download is Busy has no meaning: the model refuses the run. -/
def Obligations.PayloadMustStandDuringADownload : Prop :=
  ∀ (s : State) (bs : List Byte), downloading s = true → (supplyPay bs s).pay ≠ s.pay ∨ (supplyPay bs s).plen ≠ s.plen →
    applyEvent (.supply bs) s = .refused .payloadChanged

/-! ### CANCEL, the record, frames -/

/-- R215, R217: CANCEL in `Ready` or `Busy` is one atomic clean-up, in the source's order, and `Halted`; in `Halted` it has
no effect at all. The trace marks the event itself (`.cancelled`, log 8). -/
def Obligations.CancelCleansUpAndHalts : Prop :=
  ∀ s : State,
    (s.run ≠ .halted → arbiterOk s = true → applyEvent .cancel s = .next { s with
      owner := .none, dir := .input, csho := .inactive, cspi := .inactive, ordy := .inactive, itkn := .inactive
      ofsm := .idle, ifsm := .idle, ackEdge := false, rdyEdge := false, seq := []
      res := 5#3, errstat := s.errstat ||| 0x20#8, run := .halted
      trace := s.trace ++ [.cancelled]
        ++ (match s.owner with
            | .hostOutput => [.deasserted .csho]
            | .peerInput => [.deasserted .cspi]
            | .none => [])
        ++ (if s.dir = .input then [] else [.direction .input])
        ++ (if s.ordy = .active then [.deasserted .ordy] else [])
        ++ (if s.itkn = .active then [.deasserted .itkn] else []) }) ∧
    (s.run = .halted → applyEvent .cancel s = .next s)

/-- In `Halted`, CANCEL and every other input but reset leave the engine as it is: halted, its lines and
registers standing; the edge latches still see the peer's edges (60_exceptions.md R217, R218). -/
def Obligations.HaltedIsLeftOnlyByReset : Prop :=
  ∀ s t : State, s.run = .halted → noResetDue s = true → step s = .next t →
    t.run = .halted ∧ t.res = s.res ∧ t.errstat = s.errstat ∧ t.cur = s.cur ∧ t.idx = s.idx ∧ t.dout = s.dout
      ∧ t.din = s.din ∧ t.inbuf = s.inbuf ∧ t.drainCnt = s.drainCnt ∧ t.loadAddr = s.loadAddr
      ∧ t.execAddr = s.execAddr ∧ t.length = s.length ∧ t.strat = s.strat ∧ t.rben = s.rben
      ∧ t.ofsm = s.ofsm ∧ t.ifsm = s.ifsm
      ∧ t.rbsent = s.rbsent ∧ t.rbread = s.rbread ∧ t.rbcnt = s.rbcnt ∧ t.owner = s.owner ∧ t.dir = s.dir
      ∧ t.ordy = s.ordy ∧ t.itkn = s.itkn ∧ t.csho = s.csho ∧ t.cspi = s.cspi

/-- R211: without a reset no step clears a bit of `ERRSTAT`. -/
def Obligations.ErrorBitsAreSticky : Prop :=
  ∀ (s t : State) (k : Nat), noReset s = true → step s = .next t → s.errstat.getLsbD k = true →
    t.errstat.getLsbD k = true

/-- Frame of the sends (10_state.md section 7): SENDB and SENDW leave every register unchanged but `DOUT`, `ACKEDGE`,
`OFSM`, `ORDY`, `CUR`, `RUN`, `RES`, the record, and, with readback, the arbiter and the mismatch record; they store
nothing. -/
def Obligations.FrameOfTheSends : Prop :=
  ∀ (s t : State) (i : Instr), ((∃ b, i = .sendb b) ∨ (∃ x, i = .sendw x)) → peerOnly s = true →
    exec i s = .next t →
    t.din = s.din ∧ t.loadAddr = s.loadAddr ∧ t.execAddr = s.execAddr ∧ t.length = s.length ∧ t.idx = s.idx
      ∧ t.ifsm = s.ifsm ∧ t.strat = s.strat ∧ t.rben = s.rben ∧ t.drainCnt = s.drainCnt ∧ t.itkn = s.itkn
      ∧ t.inbuf = s.inbuf ∧ t.host = s.host ∧ (∀ a, readPay t a = readPay s a)
      ∧ (s.rdyEdge = true → t.rdyEdge = true)
      ∧ (t.errstat ||| 0x90#8) = (s.errstat ||| 0x90#8)
      ∧ (s.strat = .pulseTimed ∨ s.rben = false →
          t.owner = s.owner ∧ t.dir = s.dir ∧ t.csho = s.csho ∧ t.cspi = s.cspi ∧ t.rbsent = s.rbsent
            ∧ t.rbread = s.rbread ∧ t.rbcnt = s.rbcnt ∧ t.errstat.getLsbD 4 = s.errstat.getLsbD 4)

/-- Frame of the receives (10_state.md section 7): RECVB and DRAIN leave every register unchanged but `DIN`, `RDYEDGE`,
`IFSM`, `ITKN`, `INBUF`, `CUR`, `RUN`, `RES`, the record, and, for DRAIN, `DRAINCNT` and the arbiter; payload memory is
not written. -/
def Obligations.FrameOfTheReceives : Prop :=
  ∀ (s t : State) (i : Instr), (i = .recvb ∨ i = .drain) → peerOnly s = true → exec i s = .next t →
    t.dout = s.dout ∧ t.loadAddr = s.loadAddr ∧ t.execAddr = s.execAddr ∧ t.length = s.length ∧ t.idx = s.idx
      ∧ t.ofsm = s.ofsm ∧ t.strat = s.strat ∧ t.rben = s.rben ∧ t.ordy = s.ordy ∧ t.rbsent = s.rbsent
      ∧ t.rbread = s.rbread ∧ t.rbcnt = s.rbcnt ∧ t.host = s.host ∧ (∀ a, readPay t a = readPay s a)
      ∧ (t.errstat ||| 0x82#8) = (s.errstat ||| 0x82#8) ∧ (s.ackEdge = true → t.ackEdge = true)
      ∧ (i = .recvb → t.owner = s.owner ∧ t.dir = s.dir ∧ t.csho = s.csho ∧ t.cspi = s.cspi
          ∧ t.drainCnt = s.drainCnt)

/-- Frame of the downloads (10_state.md section 7): DLOAD and DLOADI leave every register unchanged but `IDX`, the arbiter
and what the sends write; payload memory and `INBUF` are not written. -/
def Obligations.FrameOfTheDownloads : Prop :=
  ∀ (s t : State) (i : Instr), (i = .dload ∨ i = .dloadi) → peerOnly s = true → exec i s = .next t →
    t.din = s.din ∧ t.loadAddr = s.loadAddr ∧ t.execAddr = s.execAddr ∧ t.length = s.length
      ∧ t.ifsm = s.ifsm ∧ t.strat = s.strat ∧ t.rben = s.rben ∧ t.drainCnt = s.drainCnt ∧ t.itkn = s.itkn
      ∧ t.inbuf = s.inbuf ∧ t.host = s.host ∧ (∀ a, readPay t a = readPay s a)
      ∧ (s.rdyEdge = true → t.rdyEdge = true)
      ∧ (t.errstat ||| 0x1A#8) = (s.errstat ||| 0x1A#8)
      ∧ (s.strat = .pulseTimed ∨ s.rben = false →
          t.rbsent = s.rbsent ∧ t.rbread = s.rbread ∧ t.rbcnt = s.rbcnt
            ∧ t.errstat.getLsbD 4 = s.errstat.getLsbD 4)

/-! ### Codec and the host's side -/

/-- R123, R126: the codec's round trips, for both bit orders, every byte, every level vector, every word. -/
def Obligations.CodecRoundTrips : Prop :=
  (∀ (o : BitOrder) (b : Byte), decodeLevels o (encodeLevels o b) = b) ∧
    (∀ (o : BitOrder) (lv : Vector Level 8), encodeLevels o (decodeLevels o lv) = lv) ∧
    (∀ w : Word, decodeWord (encodeWord w).1 (encodeWord w).2 = w) ∧
    (∀ hi lo : Byte, encodeWord (decodeWord hi lo) = (hi, lo))

/-- R121, R124, R125: each bit is on the line its port's order names; a word is split and joined high Byte first. -/
def Obligations.CodecBitsAndBytes : Prop :=
  (∀ (o : BitOrder) (b : Byte) (p : Nat) (h : p < 8),
      (encodeLevels o b)[p] = if b.getLsbD (match o with | .descending => 7 - p | .ascending => p) then .active
        else .inactive) ∧
    (∀ w : Word, (encodeWord w).1.toNat = w.toNat / 256 ∧ (encodeWord w).2.toNat = w.toNat % 256) ∧
    (∀ hi lo : Byte, (decodeWord hi lo).toNat = hi.toNat * 256 + lo.toNat)

/-- The parts of an image written in the layout of 20_memory.md section 2 are the parts read from it, and the declared
length is the payload's exactly when the image has `LENGTH + 6` bytes (20_memory.md R66, R67). Where it is not, that the exec
address is the final two bytes is the model's choice (log 23). -/
def Obligations.ImageLayoutIsReadBack : Prop :=
  ∀ p : ImageParts, parseImage p.bytes = some p ∧
    (p.length.toNat = p.payload.length ↔ p.bytes.length = p.length.toNat + 6)
end

