-- ==== Sys2Proof/Laws/Codes.lean ====
section
/-! SUPPORT. The fields and the shape of an encoded command word: what the decoder reads from each format. -/

namespace Sys2Proof

theorem opField_formatW (op : BitVec 4) (x : Word) : opField (formatW op x) = op := by
  apply BitVec.eq_of_getLsbD_eq
  intro i hi
  simp only [opField, formatW, BitVec.getLsbD_extractLsb', BitVec.getLsbD_append]
  interval_cases i <;> simp

theorem opField_formatB (op : BitVec 4) (x : Byte) : opField (formatB op x) = op := by
  apply BitVec.eq_of_getLsbD_eq
  intro i hi
  simp only [opField, formatB, BitVec.getLsbD_extractLsb', BitVec.getLsbD_append]
  interval_cases i <;> simp

theorem imm16Field_formatW (op : BitVec 4) (x : Word) : imm16Field (formatW op x) = x := by
  apply BitVec.eq_of_getLsbD_eq
  intro i hi
  simp only [imm16Field, formatW, BitVec.getLsbD_extractLsb', BitVec.getLsbD_append]
  simp [hi]

theorem imm8Field_formatB (op : BitVec 4) (x : Byte) : imm8Field (formatB op x) = x := by
  apply BitVec.eq_of_getLsbD_eq
  intro i hi
  simp only [imm8Field, formatB, BitVec.getLsbD_extractLsb', BitVec.getLsbD_append]
  simp [hi]

/-- A format W word has the shape of its row, whatever its immediate (spec 30_encoding.md R86, R87). -/
theorem shape_formatW (op : BitVec 4) (x : Word) : formatW op x &&& 0xFFFF0000#32 = op ++ 0#28 := by
  apply BitVec.eq_of_getLsbD_eq
  intro i hi
  simp only [formatW, BitVec.getLsbD_and, BitVec.getLsbD_append]
  interval_cases i <;> simp

/-- A format B word has the shape of its row, whatever its immediate (spec 30_encoding.md R85, R87). -/
theorem shape_formatB (op : BitVec 4) (x : Byte) : formatB op x &&& 0xFFFFFF00#32 = op ++ 0#28 := by
  apply BitVec.eq_of_getLsbD_eq
  intro i hi
  simp only [formatB, BitVec.getLsbD_and, BitVec.getLsbD_append]
  interval_cases i <;> simp

end Sys2Proof
end

