-- ==== Sys2Proof/Laws/State.lean ====
section
/-! SUPPORT. What each plain update of the state does to each field: one lemma a field, so that no later proof unfolds a
record update. -/

namespace Sys2Proof.Machine

/-! ### `emit` -/

@[simp] theorem emit_dout (e : TraceEvent) (s : State) : (emit e s).dout = s.dout := rfl
@[simp] theorem emit_din (e : TraceEvent) (s : State) : (emit e s).din = s.din := rfl
@[simp] theorem emit_loadAddr (e : TraceEvent) (s : State) : (emit e s).loadAddr = s.loadAddr := rfl
@[simp] theorem emit_execAddr (e : TraceEvent) (s : State) : (emit e s).execAddr = s.execAddr := rfl
@[simp] theorem emit_length (e : TraceEvent) (s : State) : (emit e s).length = s.length := rfl
@[simp] theorem emit_cur (e : TraceEvent) (s : State) : (emit e s).cur = s.cur := rfl
@[simp] theorem emit_idx (e : TraceEvent) (s : State) : (emit e s).idx = s.idx := rfl
@[simp] theorem emit_seq (e : TraceEvent) (s : State) : (emit e s).seq = s.seq := rfl
@[simp] theorem emit_ofsm (e : TraceEvent) (s : State) : (emit e s).ofsm = s.ofsm := rfl
@[simp] theorem emit_ifsm (e : TraceEvent) (s : State) : (emit e s).ifsm = s.ifsm := rfl
@[simp] theorem emit_owner (e : TraceEvent) (s : State) : (emit e s).owner = s.owner := rfl
@[simp] theorem emit_dir (e : TraceEvent) (s : State) : (emit e s).dir = s.dir := rfl
@[simp] theorem emit_strat (e : TraceEvent) (s : State) : (emit e s).strat = s.strat := rfl
@[simp] theorem emit_rben (e : TraceEvent) (s : State) : (emit e s).rben = s.rben := rfl
@[simp] theorem emit_run (e : TraceEvent) (s : State) : (emit e s).run = s.run := rfl
@[simp] theorem emit_res (e : TraceEvent) (s : State) : (emit e s).res = s.res := rfl
@[simp] theorem emit_errstat (e : TraceEvent) (s : State) : (emit e s).errstat = s.errstat := rfl
@[simp] theorem emit_rbsent (e : TraceEvent) (s : State) : (emit e s).rbsent = s.rbsent := rfl
@[simp] theorem emit_rbread (e : TraceEvent) (s : State) : (emit e s).rbread = s.rbread := rfl
@[simp] theorem emit_rbcnt (e : TraceEvent) (s : State) : (emit e s).rbcnt = s.rbcnt := rfl
@[simp] theorem emit_drainCnt (e : TraceEvent) (s : State) : (emit e s).drainCnt = s.drainCnt := rfl
@[simp] theorem emit_ackEdge (e : TraceEvent) (s : State) : (emit e s).ackEdge = s.ackEdge := rfl
@[simp] theorem emit_rdyEdge (e : TraceEvent) (s : State) : (emit e s).rdyEdge = s.rdyEdge := rfl
@[simp] theorem emit_ordy (e : TraceEvent) (s : State) : (emit e s).ordy = s.ordy := rfl
@[simp] theorem emit_itkn (e : TraceEvent) (s : State) : (emit e s).itkn = s.itkn := rfl
@[simp] theorem emit_csho (e : TraceEvent) (s : State) : (emit e s).csho = s.csho := rfl
@[simp] theorem emit_cspi (e : TraceEvent) (s : State) : (emit e s).cspi = s.cspi := rfl
@[simp] theorem emit_inbuf (e : TraceEvent) (s : State) : (emit e s).inbuf = s.inbuf := rfl
@[simp] theorem emit_otkn (e : TraceEvent) (s : State) : (emit e s).otkn = s.otkn := rfl
@[simp] theorem emit_irdy (e : TraceEvent) (s : State) : (emit e s).irdy = s.irdy := rfl
@[simp] theorem emit_pdata (e : TraceEvent) (s : State) : (emit e s).pdata = s.pdata := rfl
@[simp] theorem emit_pay (e : TraceEvent) (s : State) : (emit e s).pay = s.pay := rfl
@[simp] theorem emit_plen (e : TraceEvent) (s : State) : (emit e s).plen = s.plen := rfl
@[simp] theorem emit_host (e : TraceEvent) (s : State) : (emit e s).host = s.host := rfl
@[simp] theorem emit_env (e : TraceEvent) (s : State) : (emit e s).env = s.env := rfl
@[simp] theorem emit_trace (e : TraceEvent) (s : State) : (emit e s).trace = s.trace ++ [e] := rfl
@[simp] theorem emit_freeCount (e : TraceEvent) (s : State) : (emit e s).freeCount = s.freeCount := rfl

/-! ### `goto` -/

@[simp] theorem goto_dout (ls : List Label) (s : State) : (goto ls s).dout = s.dout := rfl
@[simp] theorem goto_din (ls : List Label) (s : State) : (goto ls s).din = s.din := rfl
@[simp] theorem goto_loadAddr (ls : List Label) (s : State) : (goto ls s).loadAddr = s.loadAddr := rfl
@[simp] theorem goto_execAddr (ls : List Label) (s : State) : (goto ls s).execAddr = s.execAddr := rfl
@[simp] theorem goto_length (ls : List Label) (s : State) : (goto ls s).length = s.length := rfl
@[simp] theorem goto_cur (ls : List Label) (s : State) : (goto ls s).cur = s.cur := rfl
@[simp] theorem goto_idx (ls : List Label) (s : State) : (goto ls s).idx = s.idx := rfl
@[simp] theorem goto_seq (ls : List Label) (s : State) : (goto ls s).seq = ls ++ s.seq := rfl
@[simp] theorem goto_ofsm (ls : List Label) (s : State) : (goto ls s).ofsm = s.ofsm := rfl
@[simp] theorem goto_ifsm (ls : List Label) (s : State) : (goto ls s).ifsm = s.ifsm := rfl
@[simp] theorem goto_owner (ls : List Label) (s : State) : (goto ls s).owner = s.owner := rfl
@[simp] theorem goto_dir (ls : List Label) (s : State) : (goto ls s).dir = s.dir := rfl
@[simp] theorem goto_strat (ls : List Label) (s : State) : (goto ls s).strat = s.strat := rfl
@[simp] theorem goto_rben (ls : List Label) (s : State) : (goto ls s).rben = s.rben := rfl
@[simp] theorem goto_run (ls : List Label) (s : State) : (goto ls s).run = s.run := rfl
@[simp] theorem goto_res (ls : List Label) (s : State) : (goto ls s).res = s.res := rfl
@[simp] theorem goto_errstat (ls : List Label) (s : State) : (goto ls s).errstat = s.errstat := rfl
@[simp] theorem goto_rbsent (ls : List Label) (s : State) : (goto ls s).rbsent = s.rbsent := rfl
@[simp] theorem goto_rbread (ls : List Label) (s : State) : (goto ls s).rbread = s.rbread := rfl
@[simp] theorem goto_rbcnt (ls : List Label) (s : State) : (goto ls s).rbcnt = s.rbcnt := rfl
@[simp] theorem goto_drainCnt (ls : List Label) (s : State) : (goto ls s).drainCnt = s.drainCnt := rfl
@[simp] theorem goto_ackEdge (ls : List Label) (s : State) : (goto ls s).ackEdge = s.ackEdge := rfl
@[simp] theorem goto_rdyEdge (ls : List Label) (s : State) : (goto ls s).rdyEdge = s.rdyEdge := rfl
@[simp] theorem goto_ordy (ls : List Label) (s : State) : (goto ls s).ordy = s.ordy := rfl
@[simp] theorem goto_itkn (ls : List Label) (s : State) : (goto ls s).itkn = s.itkn := rfl
@[simp] theorem goto_csho (ls : List Label) (s : State) : (goto ls s).csho = s.csho := rfl
@[simp] theorem goto_cspi (ls : List Label) (s : State) : (goto ls s).cspi = s.cspi := rfl
@[simp] theorem goto_inbuf (ls : List Label) (s : State) : (goto ls s).inbuf = s.inbuf := rfl
@[simp] theorem goto_otkn (ls : List Label) (s : State) : (goto ls s).otkn = s.otkn := rfl
@[simp] theorem goto_irdy (ls : List Label) (s : State) : (goto ls s).irdy = s.irdy := rfl
@[simp] theorem goto_pdata (ls : List Label) (s : State) : (goto ls s).pdata = s.pdata := rfl
@[simp] theorem goto_pay (ls : List Label) (s : State) : (goto ls s).pay = s.pay := rfl
@[simp] theorem goto_plen (ls : List Label) (s : State) : (goto ls s).plen = s.plen := rfl
@[simp] theorem goto_host (ls : List Label) (s : State) : (goto ls s).host = s.host := rfl
@[simp] theorem goto_env (ls : List Label) (s : State) : (goto ls s).env = s.env := rfl
@[simp] theorem goto_trace (ls : List Label) (s : State) : (goto ls s).trace = s.trace := rfl
@[simp] theorem goto_freeCount (ls : List Label) (s : State) : (goto ls s).freeCount = s.freeCount := rfl

/-! ### `accept` -/

@[simp] theorem accept_dout (w : CmdWord) (ls : List Label) (s : State) : (accept w ls s).dout = s.dout := rfl
@[simp] theorem accept_din (w : CmdWord) (ls : List Label) (s : State) : (accept w ls s).din = s.din := rfl
@[simp] theorem accept_loadAddr (w : CmdWord) (ls : List Label) (s : State) : (accept w ls s).loadAddr = s.loadAddr := rfl
@[simp] theorem accept_execAddr (w : CmdWord) (ls : List Label) (s : State) : (accept w ls s).execAddr = s.execAddr := rfl
@[simp] theorem accept_length (w : CmdWord) (ls : List Label) (s : State) : (accept w ls s).length = s.length := rfl
@[simp] theorem accept_cur (w : CmdWord) (ls : List Label) (s : State) : (accept w ls s).cur = w := rfl
@[simp] theorem accept_idx (w : CmdWord) (ls : List Label) (s : State) : (accept w ls s).idx = s.idx := rfl
@[simp] theorem accept_seq (w : CmdWord) (ls : List Label) (s : State) : (accept w ls s).seq = ls := rfl
@[simp] theorem accept_ofsm (w : CmdWord) (ls : List Label) (s : State) : (accept w ls s).ofsm = s.ofsm := rfl
@[simp] theorem accept_ifsm (w : CmdWord) (ls : List Label) (s : State) : (accept w ls s).ifsm = s.ifsm := rfl
@[simp] theorem accept_owner (w : CmdWord) (ls : List Label) (s : State) : (accept w ls s).owner = s.owner := rfl
@[simp] theorem accept_dir (w : CmdWord) (ls : List Label) (s : State) : (accept w ls s).dir = s.dir := rfl
@[simp] theorem accept_strat (w : CmdWord) (ls : List Label) (s : State) : (accept w ls s).strat = s.strat := rfl
@[simp] theorem accept_rben (w : CmdWord) (ls : List Label) (s : State) : (accept w ls s).rben = s.rben := rfl
@[simp] theorem accept_run (w : CmdWord) (ls : List Label) (s : State) : (accept w ls s).run = .busy := rfl
@[simp] theorem accept_res (w : CmdWord) (ls : List Label) (s : State) : (accept w ls s).res = s.res := rfl
@[simp] theorem accept_errstat (w : CmdWord) (ls : List Label) (s : State) : (accept w ls s).errstat = s.errstat := rfl
@[simp] theorem accept_rbsent (w : CmdWord) (ls : List Label) (s : State) : (accept w ls s).rbsent = s.rbsent := rfl
@[simp] theorem accept_rbread (w : CmdWord) (ls : List Label) (s : State) : (accept w ls s).rbread = s.rbread := rfl
@[simp] theorem accept_rbcnt (w : CmdWord) (ls : List Label) (s : State) : (accept w ls s).rbcnt = s.rbcnt := rfl
@[simp] theorem accept_drainCnt (w : CmdWord) (ls : List Label) (s : State) : (accept w ls s).drainCnt = s.drainCnt := rfl
@[simp] theorem accept_ackEdge (w : CmdWord) (ls : List Label) (s : State) : (accept w ls s).ackEdge = s.ackEdge := rfl
@[simp] theorem accept_rdyEdge (w : CmdWord) (ls : List Label) (s : State) : (accept w ls s).rdyEdge = s.rdyEdge := rfl
@[simp] theorem accept_ordy (w : CmdWord) (ls : List Label) (s : State) : (accept w ls s).ordy = s.ordy := rfl
@[simp] theorem accept_itkn (w : CmdWord) (ls : List Label) (s : State) : (accept w ls s).itkn = s.itkn := rfl
@[simp] theorem accept_csho (w : CmdWord) (ls : List Label) (s : State) : (accept w ls s).csho = s.csho := rfl
@[simp] theorem accept_cspi (w : CmdWord) (ls : List Label) (s : State) : (accept w ls s).cspi = s.cspi := rfl
@[simp] theorem accept_inbuf (w : CmdWord) (ls : List Label) (s : State) : (accept w ls s).inbuf = s.inbuf := rfl
@[simp] theorem accept_otkn (w : CmdWord) (ls : List Label) (s : State) : (accept w ls s).otkn = s.otkn := rfl
@[simp] theorem accept_irdy (w : CmdWord) (ls : List Label) (s : State) : (accept w ls s).irdy = s.irdy := rfl
@[simp] theorem accept_pdata (w : CmdWord) (ls : List Label) (s : State) : (accept w ls s).pdata = s.pdata := rfl
@[simp] theorem accept_pay (w : CmdWord) (ls : List Label) (s : State) : (accept w ls s).pay = s.pay := rfl
@[simp] theorem accept_plen (w : CmdWord) (ls : List Label) (s : State) : (accept w ls s).plen = s.plen := rfl
@[simp] theorem accept_host (w : CmdWord) (ls : List Label) (s : State) : (accept w ls s).host = s.host := rfl
@[simp] theorem accept_env (w : CmdWord) (ls : List Label) (s : State) : (accept w ls s).env = s.env := rfl
@[simp] theorem accept_trace (w : CmdWord) (ls : List Label) (s : State) : (accept w ls s).trace = s.trace := rfl
@[simp] theorem accept_freeCount (w : CmdWord) (ls : List Label) (s : State) : (accept w ls s).freeCount = s.freeCount := rfl

/-! ### `complete` -/

@[simp] theorem complete_dout (s : State) : (complete s).dout = s.dout := rfl
@[simp] theorem complete_din (s : State) : (complete s).din = s.din := rfl
@[simp] theorem complete_loadAddr (s : State) : (complete s).loadAddr = s.loadAddr := rfl
@[simp] theorem complete_execAddr (s : State) : (complete s).execAddr = s.execAddr := rfl
@[simp] theorem complete_length (s : State) : (complete s).length = s.length := rfl
@[simp] theorem complete_cur (s : State) : (complete s).cur = s.cur := rfl
@[simp] theorem complete_idx (s : State) : (complete s).idx = s.idx := rfl
@[simp] theorem complete_seq (s : State) : (complete s).seq = [] := rfl
@[simp] theorem complete_ofsm (s : State) : (complete s).ofsm = s.ofsm := rfl
@[simp] theorem complete_ifsm (s : State) : (complete s).ifsm = s.ifsm := rfl
@[simp] theorem complete_owner (s : State) : (complete s).owner = s.owner := rfl
@[simp] theorem complete_dir (s : State) : (complete s).dir = s.dir := rfl
@[simp] theorem complete_strat (s : State) : (complete s).strat = s.strat := rfl
@[simp] theorem complete_rben (s : State) : (complete s).rben = s.rben := rfl
@[simp] theorem complete_run (s : State) : (complete s).run = .ready := rfl
@[simp] theorem complete_res (s : State) : (complete s).res = 0#3 := rfl
@[simp] theorem complete_errstat (s : State) : (complete s).errstat = s.errstat := rfl
@[simp] theorem complete_rbsent (s : State) : (complete s).rbsent = s.rbsent := rfl
@[simp] theorem complete_rbread (s : State) : (complete s).rbread = s.rbread := rfl
@[simp] theorem complete_rbcnt (s : State) : (complete s).rbcnt = s.rbcnt := rfl
@[simp] theorem complete_drainCnt (s : State) : (complete s).drainCnt = s.drainCnt := rfl
@[simp] theorem complete_ackEdge (s : State) : (complete s).ackEdge = s.ackEdge := rfl
@[simp] theorem complete_rdyEdge (s : State) : (complete s).rdyEdge = s.rdyEdge := rfl
@[simp] theorem complete_ordy (s : State) : (complete s).ordy = s.ordy := rfl
@[simp] theorem complete_itkn (s : State) : (complete s).itkn = s.itkn := rfl
@[simp] theorem complete_csho (s : State) : (complete s).csho = s.csho := rfl
@[simp] theorem complete_cspi (s : State) : (complete s).cspi = s.cspi := rfl
@[simp] theorem complete_inbuf (s : State) : (complete s).inbuf = s.inbuf := rfl
@[simp] theorem complete_otkn (s : State) : (complete s).otkn = s.otkn := rfl
@[simp] theorem complete_irdy (s : State) : (complete s).irdy = s.irdy := rfl
@[simp] theorem complete_pdata (s : State) : (complete s).pdata = s.pdata := rfl
@[simp] theorem complete_pay (s : State) : (complete s).pay = s.pay := rfl
@[simp] theorem complete_plen (s : State) : (complete s).plen = s.plen := rfl
@[simp] theorem complete_host (s : State) : (complete s).host = s.host := rfl
@[simp] theorem complete_env (s : State) : (complete s).env = s.env := rfl
@[simp] theorem complete_trace (s : State) : (complete s).trace = s.trace := rfl
@[simp] theorem complete_freeCount (s : State) : (complete s).freeCount = s.freeCount := rfl

/-! ### `raiseError` -/

@[simp] theorem raiseError_dout (c : Cause) (s : State) : (raiseError c s).dout = s.dout := rfl
@[simp] theorem raiseError_din (c : Cause) (s : State) : (raiseError c s).din = s.din := rfl
@[simp] theorem raiseError_loadAddr (c : Cause) (s : State) : (raiseError c s).loadAddr = s.loadAddr := rfl
@[simp] theorem raiseError_execAddr (c : Cause) (s : State) : (raiseError c s).execAddr = s.execAddr := rfl
@[simp] theorem raiseError_length (c : Cause) (s : State) : (raiseError c s).length = s.length := rfl
@[simp] theorem raiseError_cur (c : Cause) (s : State) : (raiseError c s).cur = s.cur := rfl
@[simp] theorem raiseError_idx (c : Cause) (s : State) : (raiseError c s).idx = s.idx := rfl
@[simp] theorem raiseError_seq (c : Cause) (s : State) : (raiseError c s).seq = [] := rfl
@[simp] theorem raiseError_ofsm (c : Cause) (s : State) : (raiseError c s).ofsm = s.ofsm := rfl
@[simp] theorem raiseError_ifsm (c : Cause) (s : State) : (raiseError c s).ifsm = s.ifsm := rfl
@[simp] theorem raiseError_owner (c : Cause) (s : State) : (raiseError c s).owner = s.owner := rfl
@[simp] theorem raiseError_dir (c : Cause) (s : State) : (raiseError c s).dir = s.dir := rfl
@[simp] theorem raiseError_strat (c : Cause) (s : State) : (raiseError c s).strat = s.strat := rfl
@[simp] theorem raiseError_rben (c : Cause) (s : State) : (raiseError c s).rben = s.rben := rfl
@[simp] theorem raiseError_run (c : Cause) (s : State) : (raiseError c s).run = .ready := rfl
@[simp] theorem raiseError_res (c : Cause) (s : State) : (raiseError c s).res = c.resCode := rfl
@[simp] theorem raiseError_errstat (c : Cause) (s : State) : (raiseError c s).errstat = setErrBit c s.errstat := rfl
@[simp] theorem raiseError_rbsent (c : Cause) (s : State) : (raiseError c s).rbsent = s.rbsent := rfl
@[simp] theorem raiseError_rbread (c : Cause) (s : State) : (raiseError c s).rbread = s.rbread := rfl
@[simp] theorem raiseError_rbcnt (c : Cause) (s : State) : (raiseError c s).rbcnt = s.rbcnt := rfl
@[simp] theorem raiseError_drainCnt (c : Cause) (s : State) : (raiseError c s).drainCnt = s.drainCnt := rfl
@[simp] theorem raiseError_ackEdge (c : Cause) (s : State) : (raiseError c s).ackEdge = s.ackEdge := rfl
@[simp] theorem raiseError_rdyEdge (c : Cause) (s : State) : (raiseError c s).rdyEdge = s.rdyEdge := rfl
@[simp] theorem raiseError_ordy (c : Cause) (s : State) : (raiseError c s).ordy = s.ordy := rfl
@[simp] theorem raiseError_itkn (c : Cause) (s : State) : (raiseError c s).itkn = s.itkn := rfl
@[simp] theorem raiseError_csho (c : Cause) (s : State) : (raiseError c s).csho = s.csho := rfl
@[simp] theorem raiseError_cspi (c : Cause) (s : State) : (raiseError c s).cspi = s.cspi := rfl
@[simp] theorem raiseError_inbuf (c : Cause) (s : State) : (raiseError c s).inbuf = s.inbuf := rfl
@[simp] theorem raiseError_otkn (c : Cause) (s : State) : (raiseError c s).otkn = s.otkn := rfl
@[simp] theorem raiseError_irdy (c : Cause) (s : State) : (raiseError c s).irdy = s.irdy := rfl
@[simp] theorem raiseError_pdata (c : Cause) (s : State) : (raiseError c s).pdata = s.pdata := rfl
@[simp] theorem raiseError_pay (c : Cause) (s : State) : (raiseError c s).pay = s.pay := rfl
@[simp] theorem raiseError_plen (c : Cause) (s : State) : (raiseError c s).plen = s.plen := rfl
@[simp] theorem raiseError_host (c : Cause) (s : State) : (raiseError c s).host = s.host := rfl
@[simp] theorem raiseError_env (c : Cause) (s : State) : (raiseError c s).env = s.env := rfl
@[simp] theorem raiseError_trace (c : Cause) (s : State) : (raiseError c s).trace = s.trace := rfl
@[simp] theorem raiseError_freeCount (c : Cause) (s : State) : (raiseError c s).freeCount = s.freeCount := rfl

/-! ### `recordMismatch` -/

@[simp] theorem recordMismatch_dout (b v : Byte) (s : State) : (recordMismatch b v s).dout = s.dout := rfl
@[simp] theorem recordMismatch_din (b v : Byte) (s : State) : (recordMismatch b v s).din = s.din := rfl
@[simp] theorem recordMismatch_loadAddr (b v : Byte) (s : State) : (recordMismatch b v s).loadAddr = s.loadAddr := rfl
@[simp] theorem recordMismatch_execAddr (b v : Byte) (s : State) : (recordMismatch b v s).execAddr = s.execAddr := rfl
@[simp] theorem recordMismatch_length (b v : Byte) (s : State) : (recordMismatch b v s).length = s.length := rfl
@[simp] theorem recordMismatch_cur (b v : Byte) (s : State) : (recordMismatch b v s).cur = s.cur := rfl
@[simp] theorem recordMismatch_idx (b v : Byte) (s : State) : (recordMismatch b v s).idx = s.idx := rfl
@[simp] theorem recordMismatch_seq (b v : Byte) (s : State) : (recordMismatch b v s).seq = s.seq := rfl
@[simp] theorem recordMismatch_ofsm (b v : Byte) (s : State) : (recordMismatch b v s).ofsm = s.ofsm := rfl
@[simp] theorem recordMismatch_ifsm (b v : Byte) (s : State) : (recordMismatch b v s).ifsm = s.ifsm := rfl
@[simp] theorem recordMismatch_owner (b v : Byte) (s : State) : (recordMismatch b v s).owner = s.owner := rfl
@[simp] theorem recordMismatch_dir (b v : Byte) (s : State) : (recordMismatch b v s).dir = s.dir := rfl
@[simp] theorem recordMismatch_strat (b v : Byte) (s : State) : (recordMismatch b v s).strat = s.strat := rfl
@[simp] theorem recordMismatch_rben (b v : Byte) (s : State) : (recordMismatch b v s).rben = s.rben := rfl
@[simp] theorem recordMismatch_run (b v : Byte) (s : State) : (recordMismatch b v s).run = s.run := rfl
@[simp] theorem recordMismatch_res (b v : Byte) (s : State) : (recordMismatch b v s).res = s.res := rfl
@[simp] theorem recordMismatch_errstat (b v : Byte) (s : State) : (recordMismatch b v s).errstat = setErrBit .readbackMismatch s.errstat := rfl
@[simp] theorem recordMismatch_rbsent (b v : Byte) (s : State) : (recordMismatch b v s).rbsent = b := rfl
@[simp] theorem recordMismatch_rbread (b v : Byte) (s : State) : (recordMismatch b v s).rbread = v := rfl
@[simp] theorem recordMismatch_rbcnt (b v : Byte) (s : State) : (recordMismatch b v s).rbcnt = satIncr s.rbcnt := rfl
@[simp] theorem recordMismatch_drainCnt (b v : Byte) (s : State) : (recordMismatch b v s).drainCnt = s.drainCnt := rfl
@[simp] theorem recordMismatch_ackEdge (b v : Byte) (s : State) : (recordMismatch b v s).ackEdge = s.ackEdge := rfl
@[simp] theorem recordMismatch_rdyEdge (b v : Byte) (s : State) : (recordMismatch b v s).rdyEdge = s.rdyEdge := rfl
@[simp] theorem recordMismatch_ordy (b v : Byte) (s : State) : (recordMismatch b v s).ordy = s.ordy := rfl
@[simp] theorem recordMismatch_itkn (b v : Byte) (s : State) : (recordMismatch b v s).itkn = s.itkn := rfl
@[simp] theorem recordMismatch_csho (b v : Byte) (s : State) : (recordMismatch b v s).csho = s.csho := rfl
@[simp] theorem recordMismatch_cspi (b v : Byte) (s : State) : (recordMismatch b v s).cspi = s.cspi := rfl
@[simp] theorem recordMismatch_inbuf (b v : Byte) (s : State) : (recordMismatch b v s).inbuf = s.inbuf := rfl
@[simp] theorem recordMismatch_otkn (b v : Byte) (s : State) : (recordMismatch b v s).otkn = s.otkn := rfl
@[simp] theorem recordMismatch_irdy (b v : Byte) (s : State) : (recordMismatch b v s).irdy = s.irdy := rfl
@[simp] theorem recordMismatch_pdata (b v : Byte) (s : State) : (recordMismatch b v s).pdata = s.pdata := rfl
@[simp] theorem recordMismatch_pay (b v : Byte) (s : State) : (recordMismatch b v s).pay = s.pay := rfl
@[simp] theorem recordMismatch_plen (b v : Byte) (s : State) : (recordMismatch b v s).plen = s.plen := rfl
@[simp] theorem recordMismatch_host (b v : Byte) (s : State) : (recordMismatch b v s).host = s.host := rfl
@[simp] theorem recordMismatch_env (b v : Byte) (s : State) : (recordMismatch b v s).env = s.env := rfl
@[simp] theorem recordMismatch_trace (b v : Byte) (s : State) : (recordMismatch b v s).trace = s.trace := rfl
@[simp] theorem recordMismatch_freeCount (b v : Byte) (s : State) : (recordMismatch b v s).freeCount = s.freeCount := rfl

/-! ### `appendInbuf` -/

@[simp] theorem appendInbuf_dout (v : Byte) (s : State) : (appendInbuf v s).dout = s.dout := rfl
@[simp] theorem appendInbuf_din (v : Byte) (s : State) : (appendInbuf v s).din = s.din := rfl
@[simp] theorem appendInbuf_loadAddr (v : Byte) (s : State) : (appendInbuf v s).loadAddr = s.loadAddr := rfl
@[simp] theorem appendInbuf_execAddr (v : Byte) (s : State) : (appendInbuf v s).execAddr = s.execAddr := rfl
@[simp] theorem appendInbuf_length (v : Byte) (s : State) : (appendInbuf v s).length = s.length := rfl
@[simp] theorem appendInbuf_cur (v : Byte) (s : State) : (appendInbuf v s).cur = s.cur := rfl
@[simp] theorem appendInbuf_idx (v : Byte) (s : State) : (appendInbuf v s).idx = s.idx := rfl
@[simp] theorem appendInbuf_seq (v : Byte) (s : State) : (appendInbuf v s).seq = s.seq := rfl
@[simp] theorem appendInbuf_ofsm (v : Byte) (s : State) : (appendInbuf v s).ofsm = s.ofsm := rfl
@[simp] theorem appendInbuf_ifsm (v : Byte) (s : State) : (appendInbuf v s).ifsm = s.ifsm := rfl
@[simp] theorem appendInbuf_owner (v : Byte) (s : State) : (appendInbuf v s).owner = s.owner := rfl
@[simp] theorem appendInbuf_dir (v : Byte) (s : State) : (appendInbuf v s).dir = s.dir := rfl
@[simp] theorem appendInbuf_strat (v : Byte) (s : State) : (appendInbuf v s).strat = s.strat := rfl
@[simp] theorem appendInbuf_rben (v : Byte) (s : State) : (appendInbuf v s).rben = s.rben := rfl
@[simp] theorem appendInbuf_run (v : Byte) (s : State) : (appendInbuf v s).run = s.run := rfl
@[simp] theorem appendInbuf_res (v : Byte) (s : State) : (appendInbuf v s).res = s.res := rfl
@[simp] theorem appendInbuf_errstat (v : Byte) (s : State) : (appendInbuf v s).errstat = s.errstat := rfl
@[simp] theorem appendInbuf_rbsent (v : Byte) (s : State) : (appendInbuf v s).rbsent = s.rbsent := rfl
@[simp] theorem appendInbuf_rbread (v : Byte) (s : State) : (appendInbuf v s).rbread = s.rbread := rfl
@[simp] theorem appendInbuf_rbcnt (v : Byte) (s : State) : (appendInbuf v s).rbcnt = s.rbcnt := rfl
@[simp] theorem appendInbuf_drainCnt (v : Byte) (s : State) : (appendInbuf v s).drainCnt = s.drainCnt := rfl
@[simp] theorem appendInbuf_ackEdge (v : Byte) (s : State) : (appendInbuf v s).ackEdge = s.ackEdge := rfl
@[simp] theorem appendInbuf_rdyEdge (v : Byte) (s : State) : (appendInbuf v s).rdyEdge = s.rdyEdge := rfl
@[simp] theorem appendInbuf_ordy (v : Byte) (s : State) : (appendInbuf v s).ordy = s.ordy := rfl
@[simp] theorem appendInbuf_itkn (v : Byte) (s : State) : (appendInbuf v s).itkn = s.itkn := rfl
@[simp] theorem appendInbuf_csho (v : Byte) (s : State) : (appendInbuf v s).csho = s.csho := rfl
@[simp] theorem appendInbuf_cspi (v : Byte) (s : State) : (appendInbuf v s).cspi = s.cspi := rfl
@[simp] theorem appendInbuf_inbuf (v : Byte) (s : State) : (appendInbuf v s).inbuf = s.inbuf ++ [v] := rfl
@[simp] theorem appendInbuf_otkn (v : Byte) (s : State) : (appendInbuf v s).otkn = s.otkn := rfl
@[simp] theorem appendInbuf_irdy (v : Byte) (s : State) : (appendInbuf v s).irdy = s.irdy := rfl
@[simp] theorem appendInbuf_pdata (v : Byte) (s : State) : (appendInbuf v s).pdata = s.pdata := rfl
@[simp] theorem appendInbuf_pay (v : Byte) (s : State) : (appendInbuf v s).pay = s.pay := rfl
@[simp] theorem appendInbuf_plen (v : Byte) (s : State) : (appendInbuf v s).plen = s.plen := rfl
@[simp] theorem appendInbuf_host (v : Byte) (s : State) : (appendInbuf v s).host = s.host := rfl
@[simp] theorem appendInbuf_env (v : Byte) (s : State) : (appendInbuf v s).env = s.env := rfl
@[simp] theorem appendInbuf_trace (v : Byte) (s : State) : (appendInbuf v s).trace = s.trace := rfl
@[simp] theorem appendInbuf_freeCount (v : Byte) (s : State) : (appendInbuf v s).freeCount = s.freeCount := rfl

/-! ### `driveData` -/

@[simp] theorem driveData_dout (b : Byte) (s : State) : (driveData b s).dout = b := rfl
@[simp] theorem driveData_din (b : Byte) (s : State) : (driveData b s).din = s.din := rfl
@[simp] theorem driveData_loadAddr (b : Byte) (s : State) : (driveData b s).loadAddr = s.loadAddr := rfl
@[simp] theorem driveData_execAddr (b : Byte) (s : State) : (driveData b s).execAddr = s.execAddr := rfl
@[simp] theorem driveData_length (b : Byte) (s : State) : (driveData b s).length = s.length := rfl
@[simp] theorem driveData_cur (b : Byte) (s : State) : (driveData b s).cur = s.cur := rfl
@[simp] theorem driveData_idx (b : Byte) (s : State) : (driveData b s).idx = s.idx := rfl
@[simp] theorem driveData_seq (b : Byte) (s : State) : (driveData b s).seq = s.seq := rfl
@[simp] theorem driveData_ofsm (b : Byte) (s : State) : (driveData b s).ofsm = s.ofsm := rfl
@[simp] theorem driveData_ifsm (b : Byte) (s : State) : (driveData b s).ifsm = s.ifsm := rfl
@[simp] theorem driveData_owner (b : Byte) (s : State) : (driveData b s).owner = s.owner := rfl
@[simp] theorem driveData_dir (b : Byte) (s : State) : (driveData b s).dir = s.dir := rfl
@[simp] theorem driveData_strat (b : Byte) (s : State) : (driveData b s).strat = s.strat := rfl
@[simp] theorem driveData_rben (b : Byte) (s : State) : (driveData b s).rben = s.rben := rfl
@[simp] theorem driveData_run (b : Byte) (s : State) : (driveData b s).run = s.run := rfl
@[simp] theorem driveData_res (b : Byte) (s : State) : (driveData b s).res = s.res := rfl
@[simp] theorem driveData_errstat (b : Byte) (s : State) : (driveData b s).errstat = s.errstat := rfl
@[simp] theorem driveData_rbsent (b : Byte) (s : State) : (driveData b s).rbsent = s.rbsent := rfl
@[simp] theorem driveData_rbread (b : Byte) (s : State) : (driveData b s).rbread = s.rbread := rfl
@[simp] theorem driveData_rbcnt (b : Byte) (s : State) : (driveData b s).rbcnt = s.rbcnt := rfl
@[simp] theorem driveData_drainCnt (b : Byte) (s : State) : (driveData b s).drainCnt = s.drainCnt := rfl
@[simp] theorem driveData_ackEdge (b : Byte) (s : State) : (driveData b s).ackEdge = s.ackEdge := rfl
@[simp] theorem driveData_rdyEdge (b : Byte) (s : State) : (driveData b s).rdyEdge = s.rdyEdge := rfl
@[simp] theorem driveData_ordy (b : Byte) (s : State) : (driveData b s).ordy = s.ordy := rfl
@[simp] theorem driveData_itkn (b : Byte) (s : State) : (driveData b s).itkn = s.itkn := rfl
@[simp] theorem driveData_csho (b : Byte) (s : State) : (driveData b s).csho = s.csho := rfl
@[simp] theorem driveData_cspi (b : Byte) (s : State) : (driveData b s).cspi = s.cspi := rfl
@[simp] theorem driveData_inbuf (b : Byte) (s : State) : (driveData b s).inbuf = s.inbuf := rfl
@[simp] theorem driveData_otkn (b : Byte) (s : State) : (driveData b s).otkn = s.otkn := rfl
@[simp] theorem driveData_irdy (b : Byte) (s : State) : (driveData b s).irdy = s.irdy := rfl
@[simp] theorem driveData_pdata (b : Byte) (s : State) : (driveData b s).pdata = s.pdata := rfl
@[simp] theorem driveData_pay (b : Byte) (s : State) : (driveData b s).pay = s.pay := rfl
@[simp] theorem driveData_plen (b : Byte) (s : State) : (driveData b s).plen = s.plen := rfl
@[simp] theorem driveData_host (b : Byte) (s : State) : (driveData b s).host = s.host := rfl
@[simp] theorem driveData_env (b : Byte) (s : State) : (driveData b s).env = s.env := rfl
@[simp] theorem driveData_trace (b : Byte) (s : State) : (driveData b s).trace = s.trace ++ [.drove b] := rfl
@[simp] theorem driveData_freeCount (b : Byte) (s : State) : (driveData b s).freeCount = s.freeCount := rfl

/-! ### `supplyPay` -/

@[simp] theorem supplyPay_dout (bs : List Byte) (s : State) : (supplyPay bs s).dout = s.dout := rfl
@[simp] theorem supplyPay_din (bs : List Byte) (s : State) : (supplyPay bs s).din = s.din := rfl
@[simp] theorem supplyPay_loadAddr (bs : List Byte) (s : State) : (supplyPay bs s).loadAddr = s.loadAddr := rfl
@[simp] theorem supplyPay_execAddr (bs : List Byte) (s : State) : (supplyPay bs s).execAddr = s.execAddr := rfl
@[simp] theorem supplyPay_length (bs : List Byte) (s : State) : (supplyPay bs s).length = s.length := rfl
@[simp] theorem supplyPay_cur (bs : List Byte) (s : State) : (supplyPay bs s).cur = s.cur := rfl
@[simp] theorem supplyPay_idx (bs : List Byte) (s : State) : (supplyPay bs s).idx = s.idx := rfl
@[simp] theorem supplyPay_seq (bs : List Byte) (s : State) : (supplyPay bs s).seq = s.seq := rfl
@[simp] theorem supplyPay_ofsm (bs : List Byte) (s : State) : (supplyPay bs s).ofsm = s.ofsm := rfl
@[simp] theorem supplyPay_ifsm (bs : List Byte) (s : State) : (supplyPay bs s).ifsm = s.ifsm := rfl
@[simp] theorem supplyPay_owner (bs : List Byte) (s : State) : (supplyPay bs s).owner = s.owner := rfl
@[simp] theorem supplyPay_dir (bs : List Byte) (s : State) : (supplyPay bs s).dir = s.dir := rfl
@[simp] theorem supplyPay_strat (bs : List Byte) (s : State) : (supplyPay bs s).strat = s.strat := rfl
@[simp] theorem supplyPay_rben (bs : List Byte) (s : State) : (supplyPay bs s).rben = s.rben := rfl
@[simp] theorem supplyPay_run (bs : List Byte) (s : State) : (supplyPay bs s).run = s.run := rfl
@[simp] theorem supplyPay_res (bs : List Byte) (s : State) : (supplyPay bs s).res = s.res := rfl
@[simp] theorem supplyPay_errstat (bs : List Byte) (s : State) : (supplyPay bs s).errstat = s.errstat := rfl
@[simp] theorem supplyPay_rbsent (bs : List Byte) (s : State) : (supplyPay bs s).rbsent = s.rbsent := rfl
@[simp] theorem supplyPay_rbread (bs : List Byte) (s : State) : (supplyPay bs s).rbread = s.rbread := rfl
@[simp] theorem supplyPay_rbcnt (bs : List Byte) (s : State) : (supplyPay bs s).rbcnt = s.rbcnt := rfl
@[simp] theorem supplyPay_drainCnt (bs : List Byte) (s : State) : (supplyPay bs s).drainCnt = s.drainCnt := rfl
@[simp] theorem supplyPay_ackEdge (bs : List Byte) (s : State) : (supplyPay bs s).ackEdge = s.ackEdge := rfl
@[simp] theorem supplyPay_rdyEdge (bs : List Byte) (s : State) : (supplyPay bs s).rdyEdge = s.rdyEdge := rfl
@[simp] theorem supplyPay_ordy (bs : List Byte) (s : State) : (supplyPay bs s).ordy = s.ordy := rfl
@[simp] theorem supplyPay_itkn (bs : List Byte) (s : State) : (supplyPay bs s).itkn = s.itkn := rfl
@[simp] theorem supplyPay_csho (bs : List Byte) (s : State) : (supplyPay bs s).csho = s.csho := rfl
@[simp] theorem supplyPay_cspi (bs : List Byte) (s : State) : (supplyPay bs s).cspi = s.cspi := rfl
@[simp] theorem supplyPay_inbuf (bs : List Byte) (s : State) : (supplyPay bs s).inbuf = s.inbuf := rfl
@[simp] theorem supplyPay_otkn (bs : List Byte) (s : State) : (supplyPay bs s).otkn = s.otkn := rfl
@[simp] theorem supplyPay_irdy (bs : List Byte) (s : State) : (supplyPay bs s).irdy = s.irdy := rfl
@[simp] theorem supplyPay_pdata (bs : List Byte) (s : State) : (supplyPay bs s).pdata = s.pdata := rfl
@[simp] theorem supplyPay_pay (bs : List Byte) (s : State) : (supplyPay bs s).pay = Memory.holding 0 bs := rfl
@[simp] theorem supplyPay_plen (bs : List Byte) (s : State) : (supplyPay bs s).plen = bs.length := rfl
@[simp] theorem supplyPay_host (bs : List Byte) (s : State) : (supplyPay bs s).host = s.host := rfl
@[simp] theorem supplyPay_env (bs : List Byte) (s : State) : (supplyPay bs s).env = s.env := rfl
@[simp] theorem supplyPay_trace (bs : List Byte) (s : State) : (supplyPay bs s).trace = s.trace := rfl
@[simp] theorem supplyPay_freeCount (bs : List Byte) (s : State) : (supplyPay bs s).freeCount = s.freeCount := rfl

/-! ### `setLine` -/

@[simp] theorem setLine_dout (l : EngineLine) (v : Level) (s : State) : (setLine l v s).dout = s.dout := by
  cases l <;> rfl
@[simp] theorem setLine_din (l : EngineLine) (v : Level) (s : State) : (setLine l v s).din = s.din := by
  cases l <;> rfl
@[simp] theorem setLine_loadAddr (l : EngineLine) (v : Level) (s : State) : (setLine l v s).loadAddr = s.loadAddr := by
  cases l <;> rfl
@[simp] theorem setLine_execAddr (l : EngineLine) (v : Level) (s : State) : (setLine l v s).execAddr = s.execAddr := by
  cases l <;> rfl
@[simp] theorem setLine_length (l : EngineLine) (v : Level) (s : State) : (setLine l v s).length = s.length := by
  cases l <;> rfl
@[simp] theorem setLine_cur (l : EngineLine) (v : Level) (s : State) : (setLine l v s).cur = s.cur := by
  cases l <;> rfl
@[simp] theorem setLine_idx (l : EngineLine) (v : Level) (s : State) : (setLine l v s).idx = s.idx := by
  cases l <;> rfl
@[simp] theorem setLine_seq (l : EngineLine) (v : Level) (s : State) : (setLine l v s).seq = s.seq := by
  cases l <;> rfl
@[simp] theorem setLine_ofsm (l : EngineLine) (v : Level) (s : State) : (setLine l v s).ofsm = s.ofsm := by
  cases l <;> rfl
@[simp] theorem setLine_ifsm (l : EngineLine) (v : Level) (s : State) : (setLine l v s).ifsm = s.ifsm := by
  cases l <;> rfl
@[simp] theorem setLine_owner (l : EngineLine) (v : Level) (s : State) : (setLine l v s).owner = s.owner := by
  cases l <;> rfl
@[simp] theorem setLine_dir (l : EngineLine) (v : Level) (s : State) : (setLine l v s).dir = s.dir := by
  cases l <;> rfl
@[simp] theorem setLine_strat (l : EngineLine) (v : Level) (s : State) : (setLine l v s).strat = s.strat := by
  cases l <;> rfl
@[simp] theorem setLine_rben (l : EngineLine) (v : Level) (s : State) : (setLine l v s).rben = s.rben := by
  cases l <;> rfl
@[simp] theorem setLine_run (l : EngineLine) (v : Level) (s : State) : (setLine l v s).run = s.run := by
  cases l <;> rfl
@[simp] theorem setLine_res (l : EngineLine) (v : Level) (s : State) : (setLine l v s).res = s.res := by
  cases l <;> rfl
@[simp] theorem setLine_errstat (l : EngineLine) (v : Level) (s : State) : (setLine l v s).errstat = s.errstat := by
  cases l <;> rfl
@[simp] theorem setLine_rbsent (l : EngineLine) (v : Level) (s : State) : (setLine l v s).rbsent = s.rbsent := by
  cases l <;> rfl
@[simp] theorem setLine_rbread (l : EngineLine) (v : Level) (s : State) : (setLine l v s).rbread = s.rbread := by
  cases l <;> rfl
@[simp] theorem setLine_rbcnt (l : EngineLine) (v : Level) (s : State) : (setLine l v s).rbcnt = s.rbcnt := by
  cases l <;> rfl
@[simp] theorem setLine_drainCnt (l : EngineLine) (v : Level) (s : State) : (setLine l v s).drainCnt = s.drainCnt := by
  cases l <;> rfl
@[simp] theorem setLine_ackEdge (l : EngineLine) (v : Level) (s : State) : (setLine l v s).ackEdge = s.ackEdge := by
  cases l <;> rfl
@[simp] theorem setLine_rdyEdge (l : EngineLine) (v : Level) (s : State) : (setLine l v s).rdyEdge = s.rdyEdge := by
  cases l <;> rfl
@[simp] theorem setLine_ordy (l : EngineLine) (v : Level) (s : State) :
    (setLine l v s).ordy = if l = .ordy then v else s.ordy := by cases l <;> rfl
@[simp] theorem setLine_itkn (l : EngineLine) (v : Level) (s : State) :
    (setLine l v s).itkn = if l = .itkn then v else s.itkn := by cases l <;> rfl
@[simp] theorem setLine_csho (l : EngineLine) (v : Level) (s : State) :
    (setLine l v s).csho = if l = .csho then v else s.csho := by cases l <;> rfl
@[simp] theorem setLine_cspi (l : EngineLine) (v : Level) (s : State) :
    (setLine l v s).cspi = if l = .cspi then v else s.cspi := by cases l <;> rfl
@[simp] theorem setLine_inbuf (l : EngineLine) (v : Level) (s : State) : (setLine l v s).inbuf = s.inbuf := by
  cases l <;> rfl
@[simp] theorem setLine_otkn (l : EngineLine) (v : Level) (s : State) : (setLine l v s).otkn = s.otkn := by
  cases l <;> rfl
@[simp] theorem setLine_irdy (l : EngineLine) (v : Level) (s : State) : (setLine l v s).irdy = s.irdy := by
  cases l <;> rfl
@[simp] theorem setLine_pdata (l : EngineLine) (v : Level) (s : State) : (setLine l v s).pdata = s.pdata := by
  cases l <;> rfl
@[simp] theorem setLine_pay (l : EngineLine) (v : Level) (s : State) : (setLine l v s).pay = s.pay := by
  cases l <;> rfl
@[simp] theorem setLine_plen (l : EngineLine) (v : Level) (s : State) : (setLine l v s).plen = s.plen := by
  cases l <;> rfl
@[simp] theorem setLine_host (l : EngineLine) (v : Level) (s : State) : (setLine l v s).host = s.host := by
  cases l <;> rfl
@[simp] theorem setLine_env (l : EngineLine) (v : Level) (s : State) : (setLine l v s).env = s.env := by
  cases l <;> rfl
@[simp] theorem setLine_trace (l : EngineLine) (v : Level) (s : State) : (setLine l v s).trace = s.trace := by
  cases l <;> rfl
@[simp] theorem setLine_freeCount (l : EngineLine) (v : Level) (s : State) : (setLine l v s).freeCount = s.freeCount := by
  cases l <;> rfl

end Sys2Proof.Machine
end

