-- ==== Sys2Proof/Laws/Ops.lean ====
section
/-! SUPPORT. What each shared operation can do, said once: results in sequence, the arbiter's procedures, the data sample,
the sticky bits. -/

namespace Sys2Proof.Machine

/-! ### Results in sequence -/

@[simp] theorem andThen_next (s : State) (f : State → Result) : andThen (.next s) f = f s := rfl

/-- A sequence answers a next state exactly when both parts do. -/
theorem andThen_eq_next {r : Result} {f : State → Result} {t : State} :
    andThen r f = .next t ↔ ∃ s, r = .next s ∧ f s = .next t := by
  cases r <;> simp [andThen]

/-- A sequence faults exactly when its first part faults or its second does. -/
theorem andThen_eq_fault {r : Result} {f : State → Result} {x : Fault} :
    andThen r f = .fault x ↔ r = .fault x ∨ ∃ s, r = .next s ∧ f s = .fault x := by
  cases r <;> simp [andThen]

/-! ### The record -/

@[simp] theorem setErrBit_contention (e : BitVec 8) : setErrBit .contention e = e ||| 0x02#8 := rfl
@[simp] theorem setErrBit_ownership (e : BitVec 8) : setErrBit .ownership e = e ||| 0x04#8 := rfl
@[simp] theorem setErrBit_format (e : BitVec 8) : setErrBit .format e = e ||| 0x08#8 := rfl
@[simp] theorem setErrBit_readbackMismatch (e : BitVec 8) : setErrBit .readbackMismatch e = e ||| 0x10#8 := rfl
@[simp] theorem setErrBit_interrupted (e : BitVec 8) : setErrBit .interrupted e = e ||| 0x20#8 := rfl
@[simp] theorem setErrBit_illegalCommand (e : BitVec 8) : setErrBit .illegalCommand e = e ||| 0x40#8 := rfl
@[simp] theorem setErrBit_precondition (e : BitVec 8) : setErrBit .precondition e = e ||| 0x80#8 := rfl

/-- Recording an error clears no bit. -/
theorem setErrBit_keeps (c : Cause) (e : BitVec 8) (k : Nat) (h : e.getLsbD k = true) :
    (setErrBit c e).getLsbD k = true := by
  simp [setErrBit, h]

/-- Bit 0 is never set (spec 10_state.md R37). -/
theorem setErrBit_bit0 (c : Cause) (e : BitVec 8) : (setErrBit c e).getLsbD 0 = e.getLsbD 0 := by
  cases c <;> simp

/-- The mismatch count as a number (spec 10_state.md R39). -/
theorem satIncr_toNat (n : BitVec 16) : (satIncr n).toNat = min (n.toNat + 1) 0xFFFF := by
  have hn := n.isLt
  unfold satIncr
  split
  · next h => subst h; rfl
  · next h =>
    have : n.toNat ≠ 65535 := fun e => h (BitVec.eq_of_toNat_eq e)
    rw [BitVec.toNat_add, show (1#16).toNat = 1 from rfl]
    omega

/-! ### The arbiter -/

/-- `Claim` in full (spec 40_arbiter.md R102): one record, the events in the rule's order. -/
theorem claimBus_eq (o : Owner) (d : Dir) (s : State) :
    claimBus o d s =
      if s.owner = .none then
        .ok { s with
          owner := o, dir := d
          csho := if o = .hostOutput then .active else s.csho
          cspi := if o = .hostOutput then s.cspi else .active
          trace := s.trace ++ (if s.dir = d then [] else [.direction d]) ++ [.asserted (chipSelect o)] }
      else .error .contention := by
  unfold claimBus assertLine setDir
  by_cases h : s.dir = d
  · cases o <;> simp [h, chipSelect, setLine, emit]
  · cases o <;> simp [h, chipSelect, setLine, emit]

/-- `Release` in full (spec 40_arbiter.md R107), of an owner that can hold the bus. -/
theorem releaseBus_eq (o : Owner) (s : State) :
    releaseBus o s =
      if s.owner = o then
        .ok { s with
          owner := .none, dir := .input
          csho := if o = .hostOutput then .inactive else s.csho
          cspi := if o = .hostOutput then s.cspi else .inactive
          trace := s.trace ++ [.deasserted (chipSelect o)] ++ (if s.dir = .input then [] else [.direction .input]) }
      else .error .ownership := by
  unfold releaseBus deassertLine setDir
  by_cases h : s.dir = .input
  · cases o <;> simp [h, chipSelect, setLine, emit]
  · cases o <;> simp [h, chipSelect, setLine, emit]

/-! ### The data sample -/

/-- With the peer's port presented the sample is the peer's Byte (spec 42_handshake.md R150). -/
theorem sampleData_of_peer {s : State} (h : peerOnBus s = true) :
    sampleData s = (s.pdata, emit (.sampled s.pdata) s) := by
  simp [sampleData, h]

/-- The sample writes the trace and the counter of free values, nothing else. -/
theorem sampleData_state (s : State) :
    (sampleData s).2 = { s with trace := s.trace ++ [.sampled (sampleData s).1], freeCount := (sampleData s).2.freeCount } := by
  unfold sampleData
  split <;> rfl

end Sys2Proof.Machine
end

