-- ==== Sys2Proof/Laws/Run.lean ====
section
/-! SUPPORT. How a command runs, packaged once: a run is a sequence of micro-steps, and what every micro-step and every
event keeps, a run keeps. -/

namespace Sys2Proof.Machine

/-- One turn of a run that neither has ended nor waits nor is looked at is one micro-step. -/
theorem runFor_turn {k : Nat} {s t : State} (hrun : s.run = .busy) (hleft : leftToEnv s = false)
    (hlook : hostLooks s = false) (hstep : microStep s = .next t) : runFor (k + 1) s = runFor k t := by
  simp [runFor, hrun, hleft, hlook, hstep]

/-- A run whose command has ended answers its state. -/
theorem runFor_ended {k : Nat} {s : State} (h : s.run ≠ .busy) : runFor k s = .next s := by
  cases k <;> simp [runFor, h]

/-- A run that only the environment could bring on answers its state. -/
theorem runFor_left {k : Nat} {s : State} (h : leftToEnv s = true) : runFor k s = .next s := by
  cases k <;> simp [runFor, h]

/-- With nothing to come, the environment does nothing. -/
theorem letEnvAct_nil {s : State} (h : s.env = []) : letEnvAct s = .next s := by simp [letEnvAct, h]

/-- With nothing to come, nobody looks. -/
theorem hostLooks_nil {s : State} (h : s.env = []) : hostLooks s = false := by simp [hostLooks, h]

/-- With nothing to come, a micro-step is the engine's turn. -/
theorem microStep_nil {s : State} (h : s.env = []) : microStep s = engineTurn s := by
  simp [microStep, letEnvAct_nil h]

/-- The engine's turn at a label. -/
theorem engineTurn_at {s : State} {l : Label} {rest : List Label} (hrun : s.run = .busy) (hseq : s.seq = l :: rest) :
    engineTurn s = micro l { s with seq := rest } := by
  simp [engineTurn, hrun, hseq]

/-- A property that every event due and every micro-step keeps, a run keeps. -/
theorem runFor_keeps {P : State → Prop} (henv : ∀ s t, P s → letEnvAct s = .next t → P t)
    (heng : ∀ s t, P s → engineTurn s = .next t → P t) (k : Nat) (s t : State) (hs : P s)
    (h : runFor k s = .next t) : P t := by
  induction k generalizing s with
  | zero => simp only [runFor, Host.Outcome.next.injEq] at h; exact h ▸ hs
  | succ k ih =>
    unfold runFor at h
    split at h
    · simp only [Host.Outcome.next.injEq] at h; exact h ▸ hs
    · split at h
      · exact henv s t hs h
      · obtain ⟨u, hu, hrest⟩ := andThen_eq_next.1 h
        obtain ⟨v, hv, hvu⟩ := andThen_eq_next.1 hu
        exact ih u (heng v u (henv s v hs hv) hvu) hrest

/-- A property that acceptance, every event due and every micro-step keep, a command keeps. -/
theorem runCommand_keeps {P : State → Prop} (henv : ∀ s t, P s → letEnvAct s = .next t → P t)
    (heng : ∀ s t, P s → engineTurn s = .next t → P t) {w : CmdWord} {ls : List Label} {s t : State}
    (hs : s.run = .ready → P (accept w ls s)) (h : runCommand w ls s = .next t) : P t := by
  unfold runCommand at h
  split at h
  · next hr => exact runFor_keeps henv heng _ _ _ (hs hr) h
  · cases h

/-- No run faults from a state with a property under which no micro-step faults. -/
theorem runFor_no_fault {P : State → Prop} (henv : ∀ s t, P s → letEnvAct s = .next t → P t)
    (heng : ∀ s t, P s → engineTurn s = .next t → P t) (hef : ∀ s f, P s → letEnvAct s ≠ .fault f)
    (hgf : ∀ s f, P s → engineTurn s ≠ .fault f) (k : Nat) (s : State) (f : Fault) (hs : P s) :
    runFor k s ≠ .fault f := by
  induction k generalizing s with
  | zero => simp [runFor]
  | succ k ih =>
    unfold runFor
    split
    · simp
    · split
      · exact hef s f hs
      · intro h
        rcases andThen_eq_fault.1 h with h | ⟨u, hu, h⟩
        · rcases andThen_eq_fault.1 h with h | ⟨v, hv, h⟩
          · exact hef s f hs h
          · exact hgf v f (henv s v hs hv) h
        · obtain ⟨v, hv, hvu⟩ := andThen_eq_next.1 hu
          exact ih u (heng v u (henv s v hs hv) hvu) h

/-- What every event keeps, the events due keep. -/
theorem letEnvAct_keeps {P : State → Prop} (hev : ∀ e s t, P s → applyEvent e s = .next t → P t)
    (hpop : ∀ s env, P s → P { s with env := env }) (s t : State) (hs : P s) (h : letEnvAct s = .next t) : P t := by
  have key : ∀ (es : List Event) (s : State), P s → applyEvents es s = .next t → P t := by
    intro es
    induction es with
    | nil => intro s hs h; simp only [applyEvents, Host.Outcome.next.injEq] at h; exact h ▸ hs
    | cons e es ih =>
      intro s hs h
      obtain ⟨u, hu, hrest⟩ := andThen_eq_next.1 h
      exact ih u (hev e s u hs hu) hrest
  unfold letEnvAct at h
  split at h
  · simp only [Host.Outcome.next.injEq] at h; exact h ▸ hs
  · exact key _ _ (hpop s _ hs) h

/-- No event faults. -/
theorem applyEvent_no_fault (e : Event) (s : State) (f : Fault) : applyEvent e s ≠ .fault f := by
  cases e <;> simp only [applyEvent, supplyNow, ne_eq, reduceCtorEq, not_false_eq_true]
  split <;> simp

/-- The events due never fault. -/
theorem letEnvAct_no_fault (s : State) (f : Fault) : letEnvAct s ≠ .fault f := by
  have key : ∀ (es : List Event) (s : State), applyEvents es s ≠ .fault f := by
    intro es
    induction es with
    | nil => simp [applyEvents]
    | cons e es ih =>
      intro s h
      rcases andThen_eq_fault.1 h with h | ⟨u, _, h⟩
      · exact applyEvent_no_fault e s f h
      · exact ih u h
  unfold letEnvAct
  split
  · simp
  · exact key _ _

end Sys2Proof.Machine
end

