-- ==== Sys2Proof/Laws/Env.lean ====
section
/-! SUPPORT. What the peer can do to the machine, one event at a time, and the run of a command of one micro-step while
only the peer acts. -/

namespace Sys2Proof.Machine

/-- An event of the peer writes its lines, sets latches and extends the trace by an event that is not the engine's. -/
theorem applyEvent_peer {e : Event} (he : e.ofPeer = true) (s : State) :
    ∃ t, applyEvent e s = .next t ∧
      t = { s with otkn := t.otkn, irdy := t.irdy, pdata := t.pdata, ackEdge := t.ackEdge, rdyEdge := t.rdyEdge,
                   trace := t.trace } ∧
      (s.ackEdge = true → t.ackEdge = true) ∧ (s.rdyEdge = true → t.rdyEdge = true) ∧
      engineTrace t.trace = engineTrace s.trace := by
  cases e with
  | otkn v =>
    refine ⟨_, rfl, ?_⟩
    unfold driveOtkn
    split
    · exact ⟨rfl, id, id, rfl⟩
    · exact ⟨rfl, fun h => by simp [h], id, by simp [engineTrace, TraceEvent.ofEngine]⟩
  | irdy v =>
    refine ⟨_, rfl, ?_⟩
    unfold driveIrdy
    split
    · exact ⟨rfl, id, id, rfl⟩
    · exact ⟨rfl, id, fun h => by simp [h], by simp [engineTrace, TraceEvent.ofEngine]⟩
  | pdata b => exact ⟨_, rfl, rfl, id, id, rfl⟩
  | heartbeat => exact ⟨_, rfl, rfl, id, id, by simp [engineTrace, TraceEvent.ofEngine]⟩
  | cancel => cases he
  | reset => cases he
  | supply bs => cases he
  | hostReads => cases he

/-- An update of the state that the peer's events neither see nor touch. -/
def PeerBlind (f : State → State) : Prop :=
  (∀ s env, f { s with env := env } = { f s with env := env }) ∧ (∀ s, (f s).env = s.env) ∧
    ∀ e s t, Event.ofPeer e = true → applyEvent e s = .next t → applyEvent e (f s) = .next (f t)

theorem peerBlind_accept (w : CmdWord) (ls : List Label) : PeerBlind (accept w ls) := by
  refine ⟨fun _ _ => rfl, fun _ => rfl, fun e s t he h => ?_⟩
  cases e with
  | otkn v =>
    simp only [applyEvent, Host.Outcome.next.injEq] at h ⊢
    subst h
    by_cases hv : s.otkn = v <;> simp [driveOtkn, hv, accept, emit]
  | irdy v =>
    simp only [applyEvent, Host.Outcome.next.injEq] at h ⊢
    subst h
    by_cases hv : s.irdy = v <;> simp [driveIrdy, hv, accept, emit]
  | pdata b => cases h; rfl
  | heartbeat => cases h; rfl
  | cancel => cases he
  | reset => cases he
  | supply bs => cases he
  | hostReads => cases he

theorem peerBlind_drainCnt (n : Nat) : PeerBlind fun s => { s with drainCnt := n } := by
  refine ⟨fun _ _ => rfl, fun _ => rfl, fun e s t he h => ?_⟩
  cases e with
  | otkn v =>
    simp only [applyEvent, Host.Outcome.next.injEq] at h ⊢
    subst h
    by_cases hv : s.otkn = v <;> simp [driveOtkn, hv, emit]
  | irdy v =>
    simp only [applyEvent, Host.Outcome.next.injEq] at h ⊢
    subst h
    by_cases hv : s.irdy = v <;> simp [driveIrdy, hv, emit]
  | pdata b => cases h; rfl
  | heartbeat => cases h; rfl
  | cancel => cases he
  | reset => cases he
  | supply bs => cases he
  | hostReads => cases he

/-- While only the peer acts, what is due lands alike before and after an update it is blind to. -/
theorem letEnvAct_peerBlind {f : State → State} (hf : PeerBlind f) {s : State} (hp : peerOnly s = true) :
    ∃ s1, letEnvAct s = .next s1 ∧ letEnvAct (f s) = .next (f s1) := by
  obtain ⟨hset, henvf, hev⟩ := hf
  have key : ∀ (es : List Event) (s : State), es.all Event.ofPeer = true →
      ∃ t, applyEvents es s = .next t ∧ applyEvents es (f s) = .next (f t) := by
    intro es
    induction es with
    | nil => exact fun s _ => ⟨s, rfl, rfl⟩
    | cons e es ih =>
      intro s hall
      simp only [List.all_cons, Bool.and_eq_true] at hall
      obtain ⟨u, hu, -⟩ := applyEvent_peer hall.1 s
      obtain ⟨t, ht, hft⟩ := ih u hall.2
      exact ⟨t, by simp [applyEvents, hu, ht], by simp [applyEvents, hev e s u hall.1 hu, hft]⟩
  unfold letEnvAct
  rw [henvf]
  cases henv : s.env with
  | nil => exact ⟨s, rfl, rfl⟩
  | cons es rest =>
    have hall : es.all Event.ofPeer = true := by
      have h := hp
      rw [peerOnly, henv, List.all_cons, Bool.and_eq_true] at h
      exact h.1
    obtain ⟨t, ht, hft⟩ := key es { s with env := rest } hall
    exact ⟨t, ht, by rw [hset] at hft; exact hft⟩

@[simp] theorem peerAfter_zero (s : State) : peerAfter 0 s = s := rfl

/-- One boundary passes. -/
theorem peerAfter_succ {s t : State} (h : letEnvAct s = .next t) (n : Nat) : peerAfter (n + 1) s = peerAfter n t := by
  simp [peerAfter, h]

/-- Boundaries pass one after another. -/
theorem peerAfter_add (m n : Nat) (s : State) : peerAfter (m + n) s = peerAfter n (peerAfter m s) := by
  induction m generalizing s with
  | zero => simp
  | succ m ih =>
    rw [Nat.add_right_comm]
    cases h : letEnvAct s with
    | next t => rw [peerAfter_succ h, peerAfter_succ h, ih]
    | fault f => exact absurd h (letEnvAct_no_fault s f)
    | refused r => cases n <;> simp [peerAfter, h]

/-- With nothing to come, the peer stands where it stands. -/
theorem peerAfter_nil {s : State} (h : s.env = []) (n : Nat) : peerAfter n s = s := by
  induction n with
  | zero => rfl
  | succ n ih => rw [peerAfter_succ (letEnvAct_nil h), ih]

/-- No line rises in an empty schedule. -/
@[simp] theorem firstRise_nil (l : PeerLine) (v : Level) : firstRise l v [] = none := rfl

@[simp] theorem afterSends_zero (gap : Nat) (s : State) : afterSends gap 0 s = some s := rfl

/-- With nothing to come, no send is acknowledged. -/
theorem afterSend_nil {s : State} (h : s.env = []) : afterSend s = none := by
  simp [afterSend, peerAfter_nil h, h]

/-- While only the peer acts, nobody looks at the registers. -/
theorem hostLooks_peerOnly {s : State} (hp : peerOnly s = true) : hostLooks s = false := by
  unfold hostLooks
  split
  · rfl
  · next es rest henv =>
    rw [peerOnly, henv, List.all_cons, Bool.and_eq_true] at hp
    have hall := List.all_eq_true.1 hp.1
    by_contra hc
    have hmem : Event.hostReads ∈ es := List.contains_iff_mem.1 (by simpa using hc)
    simpa [Event.ofPeer] using hall _ hmem

/-- A command of one micro-step, while only the peer acts: the events due land, then the micro-step ends the command. -/
theorem runCommand_one {s s1 u : State} {w : CmdWord} {l : Label} (hready : s.run = .ready) (hp : peerOnly s = true)
    (hwait : leftToEnv (accept w [l] s) = false) (hs1 : letEnvAct s = .next s1)
    (hmicro : micro l (accept w [] s1) = .next u) (hend : u.run ≠ .busy) : runCommand w [l] s = .next u := by
  obtain ⟨s1', hs1', hlet⟩ := letEnvAct_peerBlind (peerBlind_accept w [l]) hp
  rw [hs1] at hs1'
  cases hs1'
  have hlook : hostLooks (accept w [l] s) = false := by
    have := hostLooks_peerOnly hp
    simpa [hostLooks] using this
  have hturn : microStep (accept w [l] s) = .next u := by
    rw [microStep, hlet, andThen_next, engineTurn_at (l := l) (rest := []) rfl rfl]
    exact hmicro
  unfold runCommand
  rw [if_pos hready]
  have hfuel : turnsFor s = (turnsFor s - 1) + 1 := by unfold turnsFor; omega
  rw [hfuel, runFor_turn rfl hwait hlook hturn, runFor_ended hend]

end Sys2Proof.Machine
end

