-- ==== Sys2Proof/Laws/Memory.lean ====
section
/-! SUPPORT. The canonical form of the payload memory: the one operation that writes it, the host's supply, gives it, and
reset has it. -/

namespace Sys2Proof.Machine

theorem Memory.risesFrom_mono {lo lo' : Nat} (h : lo' ≤ lo) (m : Memory) (hm : m.risesFrom lo = true) :
    m.risesFrom lo' = true := by
  cases m with
  | nil => rfl
  | cons c m =>
    simp only [Memory.risesFrom, Bool.and_eq_true, decide_eq_true_eq] at hm ⊢
    exact ⟨⟨by omega, hm.1.2⟩, hm.2⟩

theorem Memory.holding_rises (bs : List Byte) (a : Nat) : (Memory.holding a bs).risesFrom a = true := by
  induction bs generalizing a with
  | nil => rfl
  | cons b bs ih =>
    unfold Memory.holding
    split
    · exact Memory.risesFrom_mono (Nat.le_succ a) _ (ih (a + 1))
    · next h => simpa [Memory.risesFrom, h] using ih (a + 1)

/-- Supplying a payload gives a memory in canonical form. -/
theorem Memory.holding_wf (bs : List Byte) : (Memory.holding 0 bs).wf = true := Memory.holding_rises bs 0

theorem Memory.holding_bounds (bs : List Byte) (a : Nat) :
    ∀ c ∈ Memory.holding a bs, a ≤ c.1 ∧ c.1 < a + bs.length := by
  induction bs generalizing a with
  | nil => simp [Memory.holding]
  | cons b bs ih =>
    intro c hc
    unfold Memory.holding at hc
    simp only [List.length_cons]
    split at hc
    · have := ih (a + 1) c hc; omega
    · rcases List.mem_cons.1 hc with rfl | hc
      · simp
      · have := ih (a + 1) c hc; omega

/-- A supplied payload lies in `0 .. PLEN - 1`, in canonical form. -/
theorem payloadOk_supplyPay (bs : List Byte) (s : State) : payloadOk (supplyPay bs s) = true := by
  have h := Memory.holding_bounds bs 0
  simp only [payloadOk, supplyPay_pay, supplyPay_plen, Memory.holding_wf, Bool.true_and, List.all_eq_true]
  intro c hc
  have := h c hc
  exact decide_eq_true (by omega)

theorem payloadOk_reset : payloadOk State.reset = true := rfl

/-- Below its first address a rising memory lists nothing. -/
theorem Memory.byteAt_below {m : Memory} {lo a : Nat} (hm : m.risesFrom lo = true) (h : a < lo) :
    m.byteAt a = unlistedByte := by
  induction m generalizing lo with
  | nil => rfl
  | cons c m ih =>
    simp only [Memory.risesFrom, Bool.and_eq_true, decide_eq_true_eq] at hm
    have hne : c.1 ≠ a := by omega
    simpa [Memory.byteAt, hne] using ih hm.2 (by omega)

/-- One byte of a supplied payload: the head at its own address, the rest from the next address on. -/
theorem Memory.byteAt_holding_cons (b : Byte) (bs : List Byte) (a k : Nat) :
    (Memory.holding a (b :: bs)).byteAt k = if k = a then b else (Memory.holding (a + 1) bs).byteAt k := by
  have hlow : (Memory.holding (a + 1) bs).byteAt a = unlistedByte :=
    Memory.byteAt_below (Memory.holding_rises bs (a + 1)) (Nat.lt_succ_self a)
  by_cases hb : b = unlistedByte <;> by_cases hk : k = a
  · subst hk; simp [Memory.holding, hb, hlow]
  · simp [Memory.holding, hb, hk]
  · simp [Memory.holding, hb, hk, Memory.byteAt]
  · simp [Memory.holding, hb, hk, Memory.byteAt, Ne.symm hk]

end Sys2Proof.Machine
end

