-- ==== Sys2Proof/Laws/PerInstr.lean ====
section
/-! SUPPORT. Statements about every command as syntax, one lemma per constructor: the encoded word has the shape of the
command's row in spec/opcode_table.json (spec 30_encoding.md R87). -/

namespace Sys2Proof.Laws.WordShape

/-- `mask` of the command's row (R87). -/
def mask : Instr → CmdWord
  | .claim _ _ => 0xF1FFFFFF#32
  | .release _ => 0xF3FFFFFF#32
  | .sendb _ => 0xFFFFFF00#32
  | .sendw _ => 0xFFFF0000#32
  | .recvb => 0xFFFFFFFF#32
  | .drain => 0xFFFFFFFF#32
  | .stratack => 0xFFFFFFFF#32
  | .setload _ => 0xFFFF0000#32
  | .setexec _ => 0xFFFF0000#32
  | .setlen _ => 0xFFFF0000#32
  | .dload => 0xFFFFFFFF#32
  | .dloadi => 0xFFFFFFFF#32
  | .setrb _ => 0xFFFFFFFE#32
  | .take => 0xFFFFFFFF#32

/-- `match` of the command's row (R87). -/
def pattern : Instr → CmdWord
  | .claim _ _ => 0x10000000#32
  | .release _ => 0x20000000#32
  | .sendb _ => 0x30000000#32
  | .sendw _ => 0x40000000#32
  | .recvb => 0x50000000#32
  | .drain => 0x60000000#32
  | .stratack => 0x70000000#32
  | .setload _ => 0x80000000#32
  | .setexec _ => 0x90000000#32
  | .setlen _ => 0xA0000000#32
  | .dload => 0xB0000000#32
  | .dloadi => 0xC0000000#32
  | .setrb _ => 0xD0000000#32
  | .take => 0xE0000000#32

/-- The encoded word has the shape of the command's row. -/
def Statement (i : Instr) : Prop := encode i &&& mask i = pattern i

theorem claim (o : Owner) (d : Dir) : Statement (.claim o d) := by cases o <;> cases d <;> rfl
theorem release (o : Owner) : Statement (.release o) := by cases o <;> rfl
theorem sendb (b : Byte) : Statement (.sendb b) := shape_formatB 0x3#4 b
theorem sendw (x : Word) : Statement (.sendw x) := shape_formatW 0x4#4 x
theorem recvb : Statement .recvb := rfl
theorem drain : Statement .drain := rfl
theorem stratack : Statement .stratack := rfl
theorem setload (x : Word) : Statement (.setload x) := shape_formatW 0x8#4 x
theorem setexec (x : Word) : Statement (.setexec x) := shape_formatW 0x9#4 x
theorem setlen (x : Word) : Statement (.setlen x) := shape_formatW 0xA#4 x
theorem dload : Statement .dload := rfl
theorem dloadi : Statement .dloadi := rfl
theorem setrb (v : Bool) : Statement (.setrb v) := by cases v <;> rfl
theorem take : Statement .take := rfl

end Sys2Proof.Laws.WordShape
end

