-- ==== Sys2Proof/Tests/Slice0.lean ====
section
/-! SUPPORT. Tests: the checks of `WellFormed`, words written out from the encoding tables, at most two steps per command
with the results of spec 95_test_vectors.md, and for every statement with hypotheses a state and operands that meet them. -/

namespace Sys2Proof.Tests

open Sys2Proof Sys2Proof.Machine

/-! ### Small states -/

/-- Vector A1: from reset, the bus claimed for output. -/
def held : State := { State.reset with owner := .hostOutput, dir := .output, csho := .active }

/-- As `held`, under `Acknowledged`. -/
def heldAck : State := { held with strat := .acknowledged }

/-- As `heldAck`, with readback and `PDATA = 0xAB`. -/
def heldBack : State := { heldAck with rben := true, pdata := 0xAB#8 }

/-- Vector H20: the bus claimed for peer input, `IRDY` active, `PDATA = 0x4F`. -/
def reading : State := { State.reset with owner := .peerInput, cspi := .active, irdy := .active, pdata := 0x4F#8 }

/-- The peer waits with one Byte (vector RD2). -/
def waiting : State := { State.reset with irdy := .active, pdata := 0x41#8 }

/-- One turn of DRAIN's loop, DR3 to DR5, with the peer acting before RB6, when it has seen the acknowledge. -/
def drainTurn (e : Event) : List (List Event) := [[], [], [], [], [], [], [e], [], []]

/-- The peer after the byte it presents first: it posts each of the bytes after the acknowledge of the one before, and
withdraws "data ready" after the last. -/
def posting : List Byte → List (List Event)
  | [] => drainTurn (.irdy .inactive)
  | b :: bs => drainTurn (.pdata b) ++ posting bs

/-- The peer waits, and presents `0x4B`, then `0x0A`, after the acknowledges (vector RD3, rule R195). -/
def threeBytes : State :=
  { State.reset with irdy := .active, pdata := 0x4F#8, env := [[], []] ++ posting [0x4B#8, 0x0A#8] }

/-- Vector F3: payload and addresses of `AA 02 00 00 02 48 49 02 00`. -/
def loaded : State := supplyPay [0x48#8, 0x49#8] { State.reset with loadAddr := 0x0200#16, execAddr := 0x0200#16 }

/-- An empty payload, readback on, and a peer that echoes 00 to every byte. -/
def echoed : State :=
  { State.reset with
    strat := .acknowledged
    rben := true
    env := [[], [], []] ++ (List.replicate 7 0x00#8).flatMap echoTurn }

/-- An empty payload, no readback, and a peer that pulses `OTKN` at the first turn of every wait. -/
def acked : State :=
  { State.reset with
    strat := .acknowledged
    env := [[], [], []] ++ (List.replicate 7 ([[], [], [], [], [], narrowPulse, [], [], [], []])).flatten }

/-- The same peer, but for the last byte. -/
def stalledAtLast : State := { acked with env := acked.env.take 63 }

/-- Vector H9: an acknowledged send of 0x48 that waits. -/
def stalled : State :=
  { heldAck with
    dout := 0x48#8
    ofsm := .readyAsserted
    ordy := .active
    run := .busy
    cur := 0x30000048#32
    seq := [.sb5 0x48#8, .complete] }

/-- A download under way at its fifth byte (vector X9). -/
def underWay : State :=
  { loaded with
    owner := .hostOutput
    dir := .output
    csho := .active
    run := .busy
    cur := 0xB0000000#32
    idx := 4#17
    dout := 0x02#8
    ofsm := .acknowledged
    ordy := .active
    seq := [.sb6 0x02#8, .dl5 2] }

/-- A halted engine (vector X1). -/
def stopped : State := { State.reset with run := .halted, res := 5#3, errstat := 0x20#8 }

/-- `s`, with these events before the coming micro-steps. -/
def during (es : List (List Event)) (s : State) : State := { s with env := es }

/-- What a check says of a next state it says of some next state. -/
theorem exists_of_nextSatisfies (r : Result) (p : State → Bool) (h : nextSatisfies r p = true) :
    ∃ t, r = .next t ∧ p t = true := by
  cases r with
  | next t => exact ⟨t, rfl, h⟩
  | fault f => cases h
  | refused f => cases h

/-! ### Well-formedness (30_encoding.md R93) -/

theorem test_claim_of_no_owner_is_ill_formed : (Instr.claim .none .input).wellFormed = false := by decide

theorem test_crossed_claims_are_ill_formed :
    (Instr.claim .hostOutput .input).wellFormed = false ∧ (Instr.claim .peerInput .output).wellFormed = false := by
  decide

theorem test_release_of_no_owner_is_ill_formed : (Instr.release .none).wellFormed = false := by decide

theorem test_legal_claims_are_well_formed :
    (Instr.claim .hostOutput .output).wellFormed = true ∧ (Instr.claim .peerInput .input).wellFormed = true := by decide

/-- An ill-formed CLAIM is the illegal word with its fields (vector E7): `RES = 6`, `ERRSTAT = 0x40`. -/
theorem test_ill_formed_claim_is_an_illegal_command :
    nextSatisfies (exec (.claim .peerInput .output) State.reset)
      (fun t => t.cur = 0x1A000000#32 && t.res = 6#3 && t.errstat = 0x40#8 && t.owner = .none && t.trace = []) = true := by
  decide +kernel

/-! ### Decoding: words written out bit by bit from 30_encoding.md, sections 2 to 4 -/

/-- `OP` 0001, `OWN` 01, `DIRF` 1. -/
theorem test_decode_claim_output :
    decode 0b0001_01_1_0000000000000000000000000#32 = .ok (.claim .hostOutput .output) := by decide

/-- `OP` 0001, `OWN` 10, `DIRF` 0. -/
theorem test_decode_claim_input :
    decode 0b0001_10_0_0000000000000000000000000#32 = .ok (.claim .peerInput .input) := by decide

/-- `OP` 0010, `OWN` 01 and 10. -/
theorem test_decode_release :
    decode 0b0010_01_00000000000000000000000000#32 = .ok (.release .hostOutput) ∧
      decode 0b0010_10_00000000000000000000000000#32 = .ok (.release .peerInput) := by decide

/-- `OP` 0011, `IMM8` 0x48. -/
theorem test_decode_sendb : decode 0b0011_00000000000000000000_01001000#32 = .ok (.sendb 0x48#8) := by decide

/-- `OP` 0100, `IMM16` 0x1234. -/
theorem test_decode_sendw : decode 0b0100_000000000000_0001001000110100#32 = .ok (.sendw 0x1234#16) := by decide

/-- `OP` 0101, 0110, 0111: RECVB, DRAIN, STRATACK. -/
theorem test_decode_no_operand :
    decode 0b0101_0000000000000000000000000000#32 = .ok .recvb ∧ decode 0b0110_0000000000000000000000000000#32 = .ok .drain
      ∧ decode 0b0111_0000000000000000000000000000#32 = .ok .stratack := by decide

/-- `OP` 1000, 1001, 1010, with a Word. -/
theorem test_decode_register_writes :
    decode 0b1000_000000000000_1111111111111111#32 = .ok (.setload 0xFFFF#16) ∧
      decode 0b1001_000000000000_0000000000000000#32 = .ok (.setexec 0#16) ∧
      decode 0b1010_000000000000_0000000100000010#32 = .ok (.setlen 0x0102#16) := by decide

/-- `OP` 1011, 1100, 1110: DLOAD, DLOADI, TAKE. -/
theorem test_decode_downloads_and_take :
    decode 0b1011_0000000000000000000000000000#32 = .ok .dload ∧ decode 0b1100_0000000000000000000000000000#32 = .ok .dloadi
      ∧ decode 0b1110_0000000000000000000000000000#32 = .ok .take := by decide

/-- `OP` 1101, `IMM[0]`. -/
theorem test_decode_setrb :
    decode 0b1101_000000000000000000000000000_1#32 = .ok (.setrb true) ∧
      decode 0b1101_000000000000000000000000000_0#32 = .ok (.setrb false) := by decide

/-- Vectors E1 to E12. -/
theorem test_decode_refuses_reserved_fields :
    decode 0x00000000#32 = .error .reservedOp ∧ decode 0xFFFFFFFF#32 = .error .reservedOp
      ∧ decode 0xF0000000#32 = .error .reservedOp ∧ decode 0x10000000#32 = .error .reservedOwner
      ∧ decode 0x1C000000#32 = .error .reservedOwner ∧ decode 0x14000000#32 = .error .crossedClaim
      ∧ decode 0x1A000000#32 = .error .crossedClaim ∧ decode 0x17000000#32 = .error .strayBits
      ∧ decode 0x16000001#32 = .error .strayBits ∧ decode 0x20000000#32 = .error .reservedOwner
      ∧ decode 0x26000000#32 = .error .strayBits ∧ decode 0x2C000000#32 = .error .reservedOwner := by decide

/-- Vectors E13 to E22. -/
theorem test_decode_refuses_stray_bits :
    decode 0x30000100#32 = .error .strayBits ∧ decode 0x34000048#32 = .error .strayBits
      ∧ decode 0x40010000#32 = .error .strayBits ∧ decode 0x50000001#32 = .error .strayBits
      ∧ decode 0x60000001#32 = .error .strayBits ∧ decode 0x72000000#32 = .error .strayBits
      ∧ decode 0x80010000#32 = .error .strayBits ∧ decode 0xB0000001#32 = .error .strayBits
      ∧ decode 0xD0000002#32 = .error .strayBits ∧ decode 0xE8000000#32 = .error .strayBits := by decide

/-- The word of the table's numbering (30_encoding.md R82: one 32-bit word, presented whole). -/
theorem test_table_word : decodeTableWord 32 0x300000FF = some (.sendb 0xFF#8) := by decide

/-- The pseudo-command of 95_test_vectors.md P1 is its three words. -/
theorem test_dlexec_words :
    (Pseudo.dlexec 0x0200#16 0x0200#16).expand.map encode = [0x80000200#32, 0x90000200#32, 0xB0000000#32] := by decide

/-! ### One command each, from 95_test_vectors.md section 2 -/

/-- A1. -/
theorem test_claim_takes_the_bus :
    nextSatisfies (exec (.claim .hostOutput .output) State.reset)
      (fun t => t.owner = .hostOutput && t.dir = .output && t.csho = .active && t.cspi = .inactive && t.res = 0#3
        && t.trace = [.direction .output, .asserted .csho]) = true := by decide +kernel

/-- A3. -/
theorem test_claim_of_an_owned_bus_fails :
    nextSatisfies (exec (.claim .peerInput .input) held)
      (fun t => t.owner = .hostOutput && t.cspi = .inactive && t.res = 1#3 && t.errstat = 0x02#8 && t.trace = []) = true := by
  decide +kernel

/-- A5. -/
theorem test_release_turns_the_lines :
    nextSatisfies (exec (.release .hostOutput) held)
      (fun t => t.owner = .none && t.dir = .input && t.csho = .inactive && t.res = 0#3
        && t.trace = [.deasserted .csho, .direction .input]) = true := by decide +kernel

/-- A9: RELEASE of a free bus. -/
theorem test_release_of_a_free_bus_fails :
    nextSatisfies (exec (.release .peerInput) State.reset)
      (fun t => t.owner = .none && t.res = 2#3 && t.errstat = 0x04#8 && t.trace = []) = true := by decide +kernel

/-- H2: the pulse comes during the delay and is latched, not read. -/
theorem test_sendb_timed :
    nextSatisfies (exec (.sendb 0x48#8) (during (pulseAt 1) held))
      (fun t => t.dout = 0x48#8 && t.ackEdge && t.ofsm = .idle && t.res = 0#3 && t.trace =
        [.drove 0x48#8, .asserted .ordy, .peer .otkn .active, .peer .otkn .inactive, .deasserted .ordy]) = true := by
  decide +kernel

/-- H11: the readback differs. -/
theorem test_sendb_readback_mismatch :
    nextSatisfies (exec (.sendb 0xAA#8) (during (pulseAt 1) heldBack))
      (fun t => t.errstat = 0x10#8 && t.rbsent = 0xAA#8 && t.rbread = 0xAB#8 && t.rbcnt = 1#16 && t.res = 0#3
        && t.owner = .hostOutput && t.dir = .output && engineTrace t.trace = byteTrace 0xAA#8
        ++ [.deasserted .csho, .direction .input, .asserted .cspi, .sampled 0xAB#8, .deasserted .cspi, .direction .output,
          .asserted .csho]) = true := by
  decide +kernel

/-- H15. -/
theorem test_sendw_high_byte_first :
    nextSatisfies (exec (.sendw 0x0200#16) held)
      (fun t => t.dout = 0x00#8 && t.res = 0#3 && txFrom 0#8 t.trace = [0x02#8, 0x00#8]) = true := by decide +kernel

/-- H19: the first Byte acknowledged, the second not. -/
theorem test_sendw_stalls_on_its_second_byte :
    nextSatisfies (exec (.sendw 0x1234#16) (during (pulseAt 1) heldAck))
      (fun t => t.run = .busy && t.dout = 0x34#8 && t.ofsm = .readyAsserted && t.ordy = .active && !t.ackEdge
        && txFrom 0#8 t.trace = [0x12#8, 0x34#8]) = true := by decide +kernel

/-- H20. -/
theorem test_recvb_latches_and_appends :
    nextSatisfies (exec .recvb reading)
      (fun t => t.din = 0x4F#8 && t.inbuf = [0x4F#8] && !t.rdyEdge && t.ifsm = .idle && t.drainCnt = 0 && t.res = 0#3
        && t.trace = [.sampled 0x4F#8, .asserted .itkn, .deasserted .itkn]) = true := by decide +kernel

/-- H23. -/
theorem test_recvb_needs_data_ready :
    nextSatisfies (exec .recvb { reading with irdy := .inactive })
      (fun t => t.res = 7#3 && t.errstat = 0x80#8 && t.inbuf = [] && t.trace = []) = true := by decide +kernel

/-- RD3. -/
theorem test_drain_three_bytes :
    nextSatisfies (exec .drain threeBytes)
      (fun t => t.inbuf = [0x4F#8, 0x4B#8, 0x0A#8] && t.drainCnt = 3 && t.din = 0x0A#8 && t.owner = .none && t.res = 0#3
        && t.run = .ready) = true := by decide +kernel

/-- RD5. -/
theorem test_drain_of_an_owned_bus_fails :
    nextSatisfies (exec .drain { held with irdy := .active, drainCnt := 9 })
      (fun t => t.res = 1#3 && t.errstat = 0x02#8 && t.drainCnt = 0 && t.inbuf = [] && t.owner = .hostOutput) = true := by
  decide +kernel

/-- H25. -/
theorem test_stratack_switches :
    nextSatisfies (exec .stratack State.reset) (fun t => t.strat = .acknowledged && t.res = 0#3) = true := by
  decide +kernel

/-- H26. -/
theorem test_stratack_again_fails :
    nextSatisfies (exec .stratack heldAck)
      (fun t => t.strat = .acknowledged && t.res = 7#3 && t.errstat = 0x80#8) = true := by decide +kernel

/-- H27. -/
theorem test_setrb :
    nextSatisfies (exec (.setrb true) State.reset) (fun t => t.rben && t.res = 0#3) = true ∧
      nextSatisfies (exec (.setrb false) heldBack) (fun t => !t.rben && t.res = 0#3) = true := by decide +kernel

/-- F15. -/
theorem test_setload :
    nextSatisfies (exec (.setload 0xFFFF#16) State.reset) (fun t => t.loadAddr = 0xFFFF#16 && t.execAddr = 0#16) = true := by
  decide +kernel

/-- F15. -/
theorem test_setexec :
    nextSatisfies (exec (.setexec 0x0000#16) loaded) (fun t => t.execAddr = 0#16 && t.loadAddr = 0x0200#16) = true := by
  decide +kernel

/-- F15. -/
theorem test_setlen :
    nextSatisfies (exec (.setlen 0x0102#16) State.reset) (fun t => t.length = 0x0102#16 && t.res = 0#3) = true := by
  decide +kernel

/-- F3, the source's S4. -/
theorem test_dload_frame :
    nextSatisfies (exec .dload loaded)
      (fun t => t.idx = 9#17 && t.res = 0#3 && t.owner = .none && txFrom 0#8 t.trace =
        [0xAA#8, 0x02#8, 0x00#8, 0x00#8, 0x02#8, 0x48#8, 0x49#8, 0x02#8, 0x00#8]) = true := by decide +kernel

/-- F8. -/
theorem test_dload_of_an_owned_bus_fails :
    nextSatisfies (exec .dload { loaded with owner := .peerInput, cspi := .active })
      (fun t => t.res = 1#3 && t.errstat = 0x02#8 && t.owner = .peerInput && t.cspi = .active && t.trace = []) = true := by
  decide +kernel

/-- F10. -/
theorem test_dloadi_frame :
    nextSatisfies (exec .dloadi { loaded with length := 2#16 })
      (fun t => t.idx = 9#17 && t.res = 0#3 && txFrom 0#8 t.trace =
        [0xAA#8, 0x02#8, 0x00#8, 0x00#8, 0x02#8, 0x48#8, 0x49#8, 0x02#8, 0x00#8]) = true := by decide +kernel

/-- F13. -/
theorem test_dloadi_checks_the_format_first :
    nextSatisfies (exec .dloadi { loaded with length := 3#16, owner := .peerInput, cspi := .active })
      (fun t => t.res = 3#3 && t.errstat = 0x08#8 && t.owner = .peerInput && t.trace = []) = true := by decide +kernel

/-- RD9. -/
theorem test_take_delivers_the_buffer :
    nextSatisfies (exec .take { State.reset with inbuf := [0x4F#8, 0x4B#8, 0x0A#8], drainCnt := 3, din := 0x0A#8 })
      (fun t => t.trace = [.sink [0x4F#8, 0x4B#8, 0x0A#8]] && t.inbuf = [] && t.drainCnt = 3 && t.din = 0x0A#8) = true := by
  decide +kernel

/-- X4: CANCEL of a stalled send. -/
theorem test_cancel_of_a_stalled_send :
    nextSatisfies (step (during [[.cancel]] stalled))
      (fun t => t.owner = .none && t.dir = .input && t.ordy = .inactive && t.ofsm = .idle && t.run = .halted && t.res = 5#3
        && t.errstat = 0x20#8 && t.dout = 0x48#8 && t.cur = 0x30000048#32
        && t.trace = [.cancelled, .deasserted .csho, .direction .input, .deasserted .ordy]) = true := by decide +kernel

/-- X7: no command is accepted in `Halted`. -/
theorem test_no_command_when_halted :
    step { stopped with host := [.command 0xE0000000#32] } = .refused .commandNotEnabled := by rfl

/-- X9: reset drops a download under way. -/
theorem test_reset_drops_the_download :
    nextSatisfies (applyEvent .reset underWay)
      (fun t => t.run = .ready && t.idx = 0#17 && t.ordy = .inactive && t.owner = .none && t.seq = [] && t.loadAddr = 0#16)
        = true := by decide +kernel

/-- K5, K8 and K10: the codec. -/
theorem test_codec_rows :
    (encodeLevels .descending 0xAA#8).toList.map Level.bit = [true, false, true, false, true, false, true, false] ∧
      (encodeLevels .ascending 0x48#8).toList.map Level.bit = [false, false, false, true, false, false, true, false] ∧
      decodeLevels .descending (encodeLevels .ascending 0x48#8) = 0x12#8 ∧
      encodeWord 0x1234#16 = (0x12#8, 0x34#8) ∧ decodeWord 0x80#8 0x01#8 = 0x8001#16 := by decide +kernel

/-- 10_state.md R48: the read port's codes of a stalled send. -/
theorem test_read_port :
    [RegName.run, .ofsm, .owner, .dir, .strat, .errstat].map (fun r => readReg r stalled) = [1, 1, 1, 1, 1, 0] := by
  decide +kernel

/-- 00_scope.md R11 with R8: "data ready" of both channels is active low. -/
theorem test_ready_lines_are_active_low :
    lineElectrical .ordy stalled = false ∧ lineElectrical .irdy stalled = true := by decide +kernel

/-! ### For every statement with hypotheses, terms that meet all of them; where it has clauses, terms for each -/

theorem witness_DecodeReadsBackEveryCommand :
    (Instr.claim .peerInput .input).wellFormed = true ∧ (Instr.sendw 0xFFFF#16).wellFormed = true := by decide

theorem witness_IllegalWordIsOnlyRecorded :
    State.reset.run = .ready ∧ peerOnly (during [narrowPulse] State.reset) = true ∧ ∀ i, decode 0x0FFFFFFF#32 ≠ .ok i := by
  refine ⟨rfl, rfl, fun i h => ?_⟩
  rw [show decode 0x0FFFFFFF#32 = .error .reservedOp by decide] at h
  cases h

theorem witness_StepRunsTheDecodedCommand :
    hostLooks { heldAck with host := [.command 0x70000000#32] } = false ∧
      letEnvAct { heldAck with host := [.command 0x70000000#32] } = .next { heldAck with host := [.command 0x70000000#32] } ∧
      heldAck.run = .ready ∧ decode 0x70000000#32 = .ok .stratack := ⟨rfl, rfl, rfl, by decide⟩

theorem witness_BusyStepIsOneMicroStep :
    hostLooks underWay = false ∧ letEnvAct underWay = .next underWay ∧ underWay.run = .busy := ⟨rfl, rfl, rfl⟩

theorem witness_PlacedWordIsExecutedNext : held.run = .ready ∧ decode 0x30000048#32 = .ok (.sendb 0x48#8) := by decide

theorem witness_NoCommandOutsideReady : underWay.run ≠ .ready ∧ stopped.run ≠ .ready := by decide

/-- One that ends, one that awaits the peer. -/
theorem witness_CommandEndsOrAwaitsThePeer :
    (peerOnly threeBytes = true ∧ ∃ t, exec .drain threeBytes = .next t ∧ (decide (t.run = .ready)) = true) ∧
      (peerOnly heldAck = true ∧ ∃ t, exec (.sendb 0xAA#8) heldAck = .next t ∧ leftToEnv t = true) :=
  ⟨⟨rfl, exists_of_nextSatisfies _ _ (by decide +kernel)⟩, rfl, exists_of_nextSatisfies _ _ (by decide +kernel)⟩

theorem witness_PeerTouchesOnlyItsOwnState :
    peerOnly (during [[.otkn .active, .pdata 0x41#8, .irdy .active, .heartbeat]] stalled) = true ∧
      ∃ t, letEnvAct (during [[.otkn .active, .pdata 0x41#8, .irdy .active, .heartbeat]] stalled) = .next t ∧
        (t.ackEdge && t.rdyEdge && t.pdata = 0x41#8) = true :=
  ⟨rfl, exists_of_nextSatisfies _ _ (by decide +kernel)⟩

/-- A step and a micro-step, and an invariant state in each run state. -/
theorem witness_EveryStepKeepsTheInvariant :
    Machine.invariant threeBytes = true ∧ Machine.invariant underWay = true ∧ Machine.invariant stopped = true ∧
      (∃ t, step { threeBytes with host := [.command 0x60000000#32] } = .next t ∧ (decide (t.inbuf ≠ [])) = true) ∧
      ∃ t, microStep underWay = .next t ∧ (decide (t.ordy = .inactive)) = true :=
  ⟨by decide +kernel, by decide +kernel, by decide +kernel, exists_of_nextSatisfies _ _ (by decide +kernel),
    exists_of_nextSatisfies _ _ (by decide +kernel)⟩

theorem witness_NoFaultUnderTheInvariant :
    Machine.invariant { underWay with seq := [.dl4 2], ofsm := .idle, ordy := .inactive, idx := 8#17 } = true := by
  decide +kernel

theorem witness_DataStandWhileReadyIsActive :
    (Machine.invariant stalled = true ∧ stalled.ordy = .active) ∧
      (Machine.invariant underWay = true ∧ underWay.ordy = .active) := by decide +kernel

/-- Free, and owned. -/
theorem witness_ClaimCommandEffect :
    legalClaim .hostOutput .output = true ∧ legalClaim .peerInput .input = true ∧
      (State.reset.run = .ready ∧ peerOnly State.reset = true ∧ State.reset.owner = .none) ∧
      (held.run = .ready ∧ peerOnly held = true ∧ held.owner ≠ .none) := by decide +kernel

/-- The owner, and another. -/
theorem witness_ReleaseCommandEffect :
    legalRelease .hostOutput = true ∧ legalRelease .peerInput = true ∧ held.run = .ready ∧ peerOnly held = true ∧
      held.owner = .hostOutput ∧ held.owner ≠ .peerInput := by decide +kernel

/-- A step that calls nothing of the arbiter, and an event that is neither CANCEL nor reset. -/
theorem witness_OnlyTheArbiterWritesTheBus :
    (callsArbiter (.sb6 0x02#8) = false ∧ ∃ t, micro (.sb6 0x02#8) underWay = .next t ∧ (decide (t.ordy = .inactive)) = true)
      ∧ (Event.irdy .active ≠ .cancel ∧ Event.irdy .active ≠ .reset ∧
        ∃ t, applyEvent (.irdy .active) underWay = .next t ∧ (decide (t.irdy = .active)) = true)
      ∧ (underWay.run ≠ .halted ∧ arbiterOk underWay = true ∧
        ∃ t, applyEvent .cancel underWay = .next t ∧ (decide (t.run = .halted)) = true) :=
  ⟨⟨rfl, exists_of_nextSatisfies _ _ (by decide +kernel)⟩,
    ⟨by decide, by decide, exists_of_nextSatisfies _ _ (by decide +kernel)⟩,
    by decide, by decide +kernel, exists_of_nextSatisfies _ _ (by decide +kernel)⟩

theorem witness_OperandRegisterCommands : loaded.run = .ready ∧ peerOnly loaded = true := by decide +kernel

theorem witness_ReadbackSwitchCommand : heldBack.run = .ready ∧ peerOnly heldBack = true := by decide +kernel

theorem witness_StrategySwitchCommand :
    (held.run = .ready ∧ peerOnly held = true ∧ held.strat = .pulseTimed) ∧
      (heldAck.run = .ready ∧ peerOnly heldAck = true ∧ heldAck.strat = .acknowledged) := by decide +kernel

theorem witness_StrategyGoesOneWay :
    (Instr.take ≠ .stratack ∧ noReset held = true ∧ ∃ t, exec .take held = .next t ∧ (decide (t.res = 0#3)) = true) ∧
      (noReset stalled = true ∧ stalled.strat = .acknowledged ∧ ∃ t, step stalled = .next t ∧ (decide (t.run = .busy)) = true) :=
  ⟨⟨by decide, rfl, exists_of_nextSatisfies _ _ (by decide +kernel)⟩, rfl, rfl,
    exists_of_nextSatisfies _ _ (by decide +kernel)⟩

theorem witness_TakeDeliversTheBuffer :
    ({ reading with inbuf := [0x4F#8] } : State).run = .ready ∧ peerOnly { reading with inbuf := [0x4F#8] } = true := by
  decide +kernel

theorem witness_TimedByteIsSentWhateverThePeerDoes :
    held.run = .ready ∧ peerOnly (during (pulseAt 4) held) = true ∧ held.owner = .hostOutput ∧ held.dir = .output ∧
      held.strat = .pulseTimed := by decide +kernel

theorem witness_TimedWordIsSentHighByteFirst :
    held.run = .ready ∧ peerOnly (during [[.irdy .active]] held) = true ∧ held.owner = .hostOutput ∧ held.dir = .output ∧
      held.strat = .pulseTimed := by decide +kernel

/-- A pulse before SB4, one at the wait; two pulses. -/
theorem witness_NarrowPulseEndsTheWait :
    heldAck.run = .ready ∧ heldAck.owner = .hostOutput ∧ heldAck.dir = .output ∧ heldAck.strat = .acknowledged ∧
      heldAck.rben = false ∧ heldAck.otkn = .inactive ∧ (during (pulseAt 0) heldAck).env = pulseAt 0 ∧
      (during (pulseAt 1) heldAck).env = pulseAt 1 ∧ (during (pulsesAt 0 2) heldAck).env = pulsesAt 0 2 := by decide +kernel

/-- One edge, and two. -/
theorem witness_AcknowledgedSendsEndOnTheirEdges :
    heldAck.run = .ready ∧ peerOnly (during (pulsesAt 0 2) heldAck) = true ∧ heldAck.owner = .hostOutput ∧
      heldAck.dir = .output ∧ heldAck.strat = .acknowledged ∧ heldAck.rben = false ∧
      (afterSend (during (pulsesAt 0 2) heldAck)).isSome = true ∧
      (afterSends 0 2 (during (pulsesAt 0 2) heldAck)).isSome = true := by decide +kernel

/-- A differing byte, and the byte sent. -/
theorem witness_ReadbackComparesAndRestoresTheBus :
    heldBack.run = .ready ∧ arbiterOk heldBack = true ∧ heldBack.owner = .hostOutput ∧ heldBack.strat = .acknowledged ∧
      heldBack.rben = true ∧ heldBack.otkn = .inactive ∧ (during (pulseAt 1) heldBack).env = pulseAt 1 ∧
      heldBack.pdata = 0xAB#8 ∧ heldBack.pdata ≠ 0xAA#8 := by decide +kernel

/-- A level that is no edge (vector H8), an edge before SB3 (vector H7), and one edge for two bytes (vector H19). -/
theorem witness_UnacknowledgedSendStallsForEver :
    (heldAck.run = .ready ∧ heldAck.owner = .hostOutput ∧ heldAck.dir = .output ∧ heldAck.strat = .acknowledged ∧
        heldAck.rben = false) ∧
      (peerOnly { heldAck with otkn := .active } = true ∧ afterSend { heldAck with otkn := .active } = none) ∧
      (peerOnly (during [[], [], narrowPulse] heldAck) = true ∧ afterSend (during [[], [], narrowPulse] heldAck) = none) ∧
      (peerOnly (during (pulseAt 1) heldAck) = true ∧
        ∃ u, afterSend (during (pulseAt 1) heldAck) = some u ∧ afterSend u = none) :=
  ⟨by decide +kernel, by decide +kernel, by decide +kernel, rfl, peerAfter 8 (during (pulseAt 1) heldAck), rfl, rfl⟩

/-- The bus free, held for peer input without "data ready", held for output; the strategy switched. -/
theorem witness_BrokenPreconditionsAreRecorded :
    (State.reset.run = .ready ∧ peerOnly State.reset = true ∧ ¬ (State.reset.owner = .hostOutput ∧ State.reset.dir = .output))
      ∧ (reading.run = .ready ∧ peerOnly reading = true ∧ ¬ (reading.owner = .hostOutput ∧ reading.dir = .output))
      ∧ (peerOnly (during [[.irdy .inactive]] reading) = true ∧
        ∃ t, letEnvAct (during [[.irdy .inactive]] reading) = .next t ∧ (decide (t.irdy = .inactive)) = true)
      ∧ (heldAck.run = .ready ∧ peerOnly heldAck = true ∧ ¬ (heldAck.owner = .peerInput ∧ heldAck.dir = .input) ∧
        heldAck.strat = .acknowledged) :=
  ⟨by decide +kernel, by decide +kernel, ⟨rfl, exists_of_nextSatisfies _ _ (by decide +kernel)⟩, by decide +kernel⟩

/-- A narrow pulse on each line. -/
theorem witness_EdgesAreLatchedByThePeersEvents :
    ([.otkn .active, .otkn .inactive, .irdy .active, .irdy .inactive] : List Event).all Event.ofPeer = true ∧
      ∃ t, applyEvents [.otkn .active, .otkn .inactive, .irdy .active, .irdy .inactive] stalled = .next t ∧
        (t.ackEdge && t.rdyEdge) = true :=
  ⟨rfl, exists_of_nextSatisfies _ _ (by decide +kernel)⟩

theorem witness_LatchesAreClearedNowhereElse :
    ((∀ b, Label.rb2 ≠ .sb3 b) ∧ ∃ t, micro .rb2 { reading with run := .busy, ackEdge := true } = .next t ∧ t.ackEdge = true) ∧
      (∃ t, micro (.sb3 0x48#8) { held with run := .busy, rdyEdge := true } = .next t ∧ t.rdyEdge = true) ∧
      (stalled.run ≠ .halted ∧ ∃ t, applyEvent .cancel { stalled with ackEdge := true } = .next t ∧
        (decide (t.run = .halted)) = true) :=
  ⟨⟨(fun _ h => by cases h), exists_of_nextSatisfies _ _ (by decide +kernel)⟩,
    exists_of_nextSatisfies _ _ (by decide +kernel), by decide, exists_of_nextSatisfies _ _ (by decide +kernel)⟩

/-- A peer that presents another Byte before RB2 and raises "data ready" anew after it. -/
theorem witness_ReceivedByteIsLatchedAndAppended :
    reading.run = .ready ∧ reading.owner = .peerInput ∧ reading.dir = .input ∧
      peerOnly (during [[], [], [.pdata 0x50#8, .irdy .inactive], [.irdy .active]] reading) = true ∧
      (peerAfter 1 (during [[], [], [.pdata 0x50#8, .irdy .inactive], [.irdy .active]] reading)).irdy = .active := by
  decide +kernel

/-- The bus free, and held for output (vectors RD1, RD4). -/
theorem witness_EmptyDrainHasNoEffect :
    (State.reset.run = .ready ∧ peerOnly State.reset = true ∧ letEnvAct State.reset = .next State.reset ∧
        State.reset.irdy = .inactive) ∧
      (held.run = .ready ∧ peerOnly held = true ∧ letEnvAct held = .next held ∧ held.irdy = .inactive) :=
  ⟨⟨rfl, rfl, rfl, rfl⟩, rfl, rfl, rfl, rfl⟩

/-- One byte, and three. -/
theorem witness_DrainReturnsTheRunInOrder :
    ((during ([[], []] ++ posting []) waiting).run = .ready ∧ peerOnly (during ([[], []] ++ posting []) waiting) = true ∧
        waiting.owner = .none ∧ arbiterOk waiting = true ∧
        (peerAfter 1 (during ([[], []] ++ posting []) waiting)).irdy = .active ∧
        irdyAtTest 0 (during ([[], []] ++ posting []) waiting) = .inactive) ∧
      (threeBytes.run = .ready ∧ peerOnly threeBytes = true ∧ threeBytes.owner = .none ∧ arbiterOk threeBytes = true ∧
        (peerAfter 1 threeBytes).irdy = .active ∧ irdyAtTest 0 threeBytes = .active ∧ irdyAtTest 1 threeBytes = .active ∧
        irdyAtTest 2 threeBytes = .inactive) := by decide +kernel

theorem witness_DrainOfAnEndlessStreamNeverEnds :
    waiting.run = .ready ∧ waiting.owner = .none ∧ waiting.irdy = .active ∧ waiting.env = [] := by decide +kernel

theorem witness_BufferOnlyGrowsAtItsEnd :
    Instr.recvb ≠ .take ∧ noReset reading = true ∧ ∃ t, exec .recvb reading = .next t ∧ (decide (t.inbuf ≠ [])) = true :=
  ⟨by decide, rfl, exists_of_nextSatisfies _ _ (by decide +kernel)⟩

/-- The longest payload, first and last byte of its frame; the empty one. -/
theorem witness_FrameBytesAreTheWireFrame :
    (({ loaded with plen := 65535 } : State).plen ≤ 65535 ∧ 0 < 65535 + 7 ∧ 65541 < ({ loaded with plen := 65535 } : State).plen + 7)
      ∧ (State.reset.plen ≤ 65535 ∧ 6 < State.reset.plen + 7) := by decide +kernel

/-- DLOAD of any declared length, DLOADI of the right one. -/
theorem witness_TimedDownloadSendsTheFrame :
    (loaded.run = .ready ∧ peerOnly (during [narrowPulse] loaded) = true ∧ loaded.strat = .pulseTimed ∧ loaded.owner = .none
        ∧ arbiterOk loaded = true ∧ loaded.plen ≤ 65535) ∧
      (State.reset.length.toNat = State.reset.plen ∧ ({ loaded with length := 2#16 } : State).length.toNat = loaded.plen) := by
  decide +kernel

/-- An empty payload, a pulse at the first turn of every wait. -/
theorem witness_AcknowledgedDownloadSendsTheFrame :
    acked.run = .ready ∧ peerOnly acked = true ∧ acked.strat = .acknowledged ∧ acked.rben = false ∧ acked.owner = .none ∧
      arbiterOk acked = true ∧ acked.plen ≤ 65535 ∧ acked.length.toNat = acked.plen ∧
      (afterFrameBytes (acked.plen + 7) acked).isSome = true := by decide +kernel

/-- The first byte, and the last. -/
theorem witness_DownloadStallsAtItsFirstUnacknowledgedByte :
    (0 < loaded.plen + 7 ∧ afterFrameBytes 0 { loaded with strat := .acknowledged } = some { loaded with strat := .acknowledged }
        ∧ afterSend { loaded with strat := .acknowledged } = none) ∧
      (6 < stalledAtLast.plen + 7 ∧ stalledAtLast.run = .ready ∧ peerOnly stalledAtLast = true ∧
        stalledAtLast.strat = .acknowledged ∧ stalledAtLast.rben = false ∧ stalledAtLast.owner = .none ∧
        arbiterOk stalledAtLast = true ∧
        ((afterFrameBytes 6 stalledAtLast).map fun u => (afterSend u).isNone) = some true) :=
  ⟨⟨by decide, rfl, rfl⟩, by decide +kernel⟩

theorem witness_MismatchesNeverStopADownload :
    echoed.run = .ready ∧ echoed.strat = .acknowledged ∧ echoed.rben = true ∧ echoed.owner = .none ∧ arbiterOk echoed = true ∧
      echoed.otkn = .inactive ∧ echoed.plen ≤ 65535 ∧ (List.replicate 7 0x00#8).length = echoed.plen + 7 ∧
      echoed.env = [[], [], []] ++ (List.replicate 7 0x00#8).flatMap echoTurn := by decide +kernel

theorem witness_CheckedDownloadIsTheDownload :
    ({ loaded with length := 2#16 } : State).run = .ready ∧ peerOnly { loaded with length := 2#16 } = true ∧
      ({ loaded with length := 2#16 } : State).length.toNat = ({ loaded with length := 2#16 } : State).plen := by
  decide +kernel

/-- Vectors F6, F14 (one byte too many) and F11 (a wrong declared length). -/
theorem witness_FormatErrorsComeBeforeTheClaim :
    (({ reading with plen := 65536 } : State).run = .ready ∧ peerOnly { reading with plen := 65536 } = true ∧
        65535 < ({ reading with plen := 65536 } : State).plen) ∧
      (({ loaded with length := 3#16 } : State).run = .ready ∧ peerOnly { loaded with length := 3#16 } = true ∧
        ({ loaded with length := 3#16 } : State).length.toNat ≠ ({ loaded with length := 3#16 } : State).plen) := by
  decide +kernel

/-- Vectors F8, F9 and RD5. -/
theorem witness_OwnedBusStopsDownloadAndDrain :
    (held.run = .ready ∧ peerOnly held = true ∧ held.owner ≠ .none ∧ letEnvAct held = .next held ∧ held.plen ≤ 65535 ∧
        held.length.toNat = held.plen) ∧
      (reading.run = .ready ∧ peerOnly reading = true ∧ reading.owner ≠ .none ∧ letEnvAct reading = .next reading ∧
        reading.irdy = .active) :=
  ⟨⟨rfl, rfl, by decide, rfl, by decide, rfl⟩, rfl, rfl, by decide, rfl, rfl⟩

/-- Another byte, and another length. -/
theorem witness_PayloadMustStandDuringADownload :
    downloading underWay = true ∧ (supplyPay [0x48#8, 0x4A#8] underWay).pay ≠ underWay.pay ∧
      (supplyPay [0x48#8, 0x49#8, 0x00#8] underWay).plen ≠ underWay.plen := by decide +kernel

/-- Every owner, in `Ready` and in `Busy`; and `Halted`. -/
theorem witness_CancelCleansUpAndHalts :
    (State.reset.run ≠ .halted ∧ arbiterOk State.reset = true) ∧ (reading.run ≠ .halted ∧ arbiterOk reading = true) ∧
      (stalled.run ≠ .halted ∧ arbiterOk stalled = true) ∧ stopped.run = .halted := by decide +kernel

theorem witness_HaltedIsLeftOnlyByReset :
    stopped.run = .halted ∧ noResetDue (during [[.cancel, .otkn .active]] stopped) = true ∧
      ∃ t, step (during [[.cancel, .otkn .active]] stopped) = .next t ∧ (decide (t.run = .halted)) = true :=
  ⟨rfl, rfl, exists_of_nextSatisfies _ _ (by decide +kernel)⟩

theorem witness_ErrorBitsAreSticky :
    noReset stopped = true ∧ stopped.errstat.getLsbD 5 = true ∧
      ∃ t, step (during [[.otkn .active]] stopped) = .next t ∧ t.ackEdge = true :=
  ⟨rfl, by decide, exists_of_nextSatisfies _ _ (by decide +kernel)⟩

/-- With readback, and without. -/
theorem witness_FrameOfTheSends :
    (peerOnly (during (pulseAt 1) heldBack) = true ∧
        ∃ t, exec (.sendb 0xAA#8) (during (pulseAt 1) heldBack) = .next t ∧ (decide (t.rbcnt = 1#16)) = true) ∧
      (peerOnly held = true ∧ held.strat = .pulseTimed ∧ ∃ t, exec (.sendw 0xFFFF#16) held = .next t ∧ (decide (t.dout = 0xFF#8)) = true) :=
  ⟨⟨rfl, exists_of_nextSatisfies _ _ (by decide +kernel)⟩, rfl, rfl, exists_of_nextSatisfies _ _ (by decide +kernel)⟩

theorem witness_FrameOfTheReceives :
    (peerOnly threeBytes = true ∧ ∃ t, exec .drain threeBytes = .next t ∧ (decide (t.drainCnt = 3)) = true) ∧
      (peerOnly reading = true ∧ ∃ t, exec .recvb reading = .next t ∧ (decide (t.din = 0x4F#8)) = true) :=
  ⟨⟨rfl, exists_of_nextSatisfies _ _ (by decide +kernel)⟩, rfl, exists_of_nextSatisfies _ _ (by decide +kernel)⟩

theorem witness_FrameOfTheDownloads :
    (peerOnly echoed = true ∧ ∃ t, exec .dload echoed = .next t ∧ (decide (t.idx = 7#17)) = true) ∧
      (peerOnly State.reset = true ∧ State.reset.rben = false ∧
        ∃ t, exec .dloadi State.reset = .next t ∧ (decide (t.idx = 7#17)) = true) :=
  ⟨⟨rfl, exists_of_nextSatisfies _ _ (by decide +kernel)⟩, rfl, rfl, exists_of_nextSatisfies _ _ (by decide +kernel)⟩

/-- The first and the last line position. -/
theorem witness_CodecBitsAndBytes : 0 < 8 ∧ 7 < 8 := by decide

end Sys2Proof.Tests
end

section
/-! The step read through its two turns (spec 00_scope.md R9), and what it is while a command is in progress. -/

namespace Sys2Proof.Machine

theorem step_of_not_hostLooks {s : State} (h : hostLooks s = false) : step s = andThen (letEnvAct s) turn := by
  simp [step, h]

theorem turn_of_busy {s : State} (h : s.run = .busy) : turn s = engineTurn s := by
  simp [turn, h]

theorem microStep_of_letEnvAct {s s1 : State} (h : letEnvAct s = .next s1) : microStep s = engineTurn s1 := by
  rw [microStep, h, andThen_next]

theorem step_of_letEnvAct {s s1 : State} (hlook : hostLooks s = false) (henv : letEnvAct s = .next s1) :
    step s = turn s1 := by
  rw [step_of_not_hostLooks hlook, henv, andThen_next]

/-- Settles O6: after the due events, `step` and `microStep` both leave the turn to the engine. -/
theorem busyStepIsOneMicroStep : Obligations.BusyStepIsOneMicroStep := by
  intro s s1 hlook henv hbusy
  calc step s = turn s1 := step_of_letEnvAct hlook henv
    _ = engineTurn s1 := turn_of_busy hbusy
    _ = microStep s := (microStep_of_letEnvAct henv).symm

end Sys2Proof.Machine
end

section
/-! What one event of the environment does (spec 10_state.md section 7; 60_exceptions.md R215), and what a list of them
keeps while no reset is due. -/

namespace Sys2Proof.Machine

/-! ### CANCEL in closed form -/

theorem exists_dropChipSelect_eq (s : State) :
    ∃ tr, dropChipSelect s = { s with
      csho := if s.owner = .hostOutput then .inactive else s.csho
      cspi := if s.owner = .peerInput then .inactive else s.cspi
      trace := tr } := by
  unfold dropChipSelect
  split
  · next h => exact ⟨s.trace ++ [.deasserted .csho], by simp [h, deassertLine, setLine, emit]⟩
  · next h => exact ⟨s.trace ++ [.deasserted .cspi], by simp [h, deassertLine, setLine, emit]⟩
  · next h => exact ⟨s.trace, by rw [h]; simp only [reduceCtorEq, if_false]; rw [← h]⟩

theorem exists_setDir_eq (d : Dir) (s : State) : ∃ tr, setDir d s = { s with dir := d, trace := tr } := by
  unfold setDir
  split
  · next h => exact ⟨s.trace, by rw [← h]⟩
  · exact ⟨_, rfl⟩

theorem exists_deassertIfActive_ordy_eq (s : State) :
    ∃ tr, deassertIfActive .ordy s.ordy s = { s with ordy := .inactive, trace := tr } := by
  cases h : s.ordy with
  | inactive => exact ⟨s.trace, show s = { s with ordy := .inactive, trace := s.trace } by rw [← h]⟩
  | active => exact ⟨_, rfl⟩

theorem exists_deassertIfActive_itkn_eq (s : State) :
    ∃ tr, deassertIfActive .itkn s.itkn s = { s with itkn := .inactive, trace := tr } := by
  cases h : s.itkn with
  | inactive => exact ⟨s.trace, show s = { s with itkn := .inactive, trace := s.trace } by rw [← h]⟩
  | active => exact ⟨_, rfl⟩

/-- The clean-up of CANCEL in full but for the trace (spec 60_exceptions.md R215), whatever the state. -/
theorem exists_cancelNow_eq (s : State) :
    ∃ tr, cancelNow s = { s with
      owner := .none, dir := .input, ordy := .inactive, itkn := .inactive
      csho := if s.owner = .hostOutput then .inactive else s.csho
      cspi := if s.owner = .peerInput then .inactive else s.cspi
      ofsm := .idle, ifsm := .idle, ackEdge := false, rdyEdge := false, seq := []
      res := Cause.interrupted.resCode, errstat := setErrBit .interrupted s.errstat, run := .halted
      trace := tr } := by
  obtain ⟨tr, hdrop⟩ := exists_dropChipSelect_eq s
  unfold cancelNow
  generalize dropChipSelect s = s0 at hdrop ⊢
  obtain ⟨tr1, hdir⟩ := exists_setDir_eq .input { s0 with owner := .none }
  dsimp only
  generalize setDir .input { s0 with owner := .none } = s1 at hdir ⊢
  obtain ⟨tr2, hordy⟩ := exists_deassertIfActive_ordy_eq s1
  generalize deassertIfActive .ordy s1.ordy s1 = s2 at hordy ⊢
  obtain ⟨tr3, hitkn⟩ := exists_deassertIfActive_itkn_eq s2
  exact ⟨tr3, by rw [hitkn, hordy, hdir, hdrop]⟩

/-! ### One event, without a reset -/

/-- What every event but reset leaves of the strategy, the sequencer position and the sticky bits. -/
structure EventFrame (s t : State) : Prop where
  strat : t.strat = s.strat
  seq : t.seq = s.seq ∨ t.seq = []
  errstat : t.errstat = s.errstat ∨ t.errstat = setErrBit .interrupted s.errstat

theorem EventFrame.refl (s : State) : EventFrame s s := ⟨rfl, .inl rfl, .inl rfl⟩

theorem cancel_frame (s : State) : EventFrame s (cancel s) := by
  unfold cancel
  split
  · exact .refl s
  · obtain ⟨tr, h⟩ := exists_cancelNow_eq (emit .cancelled s)
    rw [h]
    exact ⟨rfl, .inr rfl, .inr rfl⟩

theorem supplyNow_eq_next {bs : List Byte} {s t : State} (h : supplyNow bs s = .next t) :
    t = supplyPay bs s ∧
      (downloading s = true → (supplyPay bs s).pay = s.pay ∧ (supplyPay bs s).plen = s.plen) := by
  unfold supplyNow at h
  split at h
  · cases h
  · next hc =>
    cases h
    exact ⟨rfl, fun hd => by simpa [hd] using hc⟩

theorem applyEvent_frame {e : Event} {s t : State} (he : e ≠ .reset) (h : applyEvent e s = .next t) :
    EventFrame s t := by
  cases e with
  | otkn v => cases h; unfold driveOtkn; split <;> exact ⟨rfl, .inl rfl, .inl rfl⟩
  | irdy v => cases h; unfold driveIrdy; split <;> exact ⟨rfl, .inl rfl, .inl rfl⟩
  | pdata b => cases h; exact ⟨rfl, .inl rfl, .inl rfl⟩
  | cancel => cases h; exact cancel_frame s
  | reset => exact absurd rfl he
  | supply bs => obtain ⟨rfl, -⟩ := supplyNow_eq_next h; exact ⟨rfl, .inl rfl, .inl rfl⟩
  | hostReads => cases h; exact .refl s
  | heartbeat => cases h; exact ⟨rfl, .inl rfl, .inl rfl⟩

theorem cancel_env (s : State) : (cancel s).env = s.env := by
  unfold cancel
  split
  · rfl
  · obtain ⟨tr, h⟩ := exists_cancelNow_eq (emit .cancelled s)
    rw [h]
    rfl

/-- No event, reset included, changes what is to come (log 15). -/
theorem applyEvent_env {e : Event} {s t : State} (h : applyEvent e s = .next t) : t.env = s.env := by
  cases e with
  | otkn v => cases h; unfold driveOtkn; split <;> rfl
  | irdy v => cases h; unfold driveIrdy; split <;> rfl
  | pdata b => cases h; rfl
  | cancel => cases h; exact cancel_env s
  | reset => cases h; rfl
  | supply bs => obtain ⟨rfl, -⟩ := supplyNow_eq_next h; rfl
  | hostReads => cases h; rfl
  | heartbeat => cases h; rfl

/-! ### The events due -/

/-- What every event of a kind keeps, a list of such events keeps. -/
theorem applyEvents_keeps {P : State → Prop} {es : List Event}
    (hev : ∀ e ∈ es, ∀ s t, P s → applyEvent e s = .next t → P t) (s t : State) (hs : P s)
    (h : applyEvents es s = .next t) : P t := by
  induction es generalizing s with
  | nil => cases h; exact hs
  | cons e es ih =>
    obtain ⟨u, hu, hrest⟩ := andThen_eq_next.1 h
    exact ih (fun e' he' => hev e' (List.mem_cons_of_mem e he')) u (hev e List.mem_cons_self s u hs hu) hrest

/-- The events due use up the nearest entry of the schedule. -/
theorem letEnvAct_env {s t : State} (h : letEnvAct s = .next t) : t.env = s.env.tail := by
  unfold letEnvAct at h
  split at h
  · next henv => cases h; simp [henv]
  · next es rest henv =>
    rw [henv]
    exact applyEvents_keeps (P := fun u => u.env = rest) (fun e _ a b ha hab => (applyEvent_env hab).trans ha)
      { s with env := rest } t rfl h

/-- What every event but reset keeps, the events due keep while no reset is to come; and then still none is. -/
theorem letEnvAct_keeps_of_noReset {P : State → Prop}
    (hev : ∀ e s t, e ≠ .reset → P s → applyEvent e s = .next t → P t)
    (hpop : ∀ s env, P s → P { s with env := env }) {s t : State} (hn : noReset s = true) (hs : P s)
    (h : letEnvAct s = .next t) : noReset t = true ∧ P t := by
  have henv := letEnvAct_env h
  unfold letEnvAct at h
  split at h
  · cases h; exact ⟨hn, hs⟩
  · next es rest hse =>
    rw [noReset, hse, List.all_cons, Bool.and_eq_true] at hn
    obtain ⟨hes, hrest⟩ := hn
    refine ⟨by rw [noReset, henv, hse]; exact hrest, ?_⟩
    have hne : ∀ e ∈ es, e ≠ .reset := by
      rintro e he rfl
      simp [he] at hes
    exact applyEvents_keeps (fun e he a b => hev e a b (hne e he)) { s with env := rest } t (hpop s rest hs) h

end Sys2Proof.Machine
end

section
/-! What any micro-step can do, said once: it changes the engine locally and then ends the command, raises an error, or
names the labels that come next (spec 10_state.md R27, 60_exceptions.md R200 to R202). -/

namespace Sys2Proof.Machine

/-- A change inside a micro-step at label `l`, before the micro-step says what comes next: the other agents' variables and
the sequencing stand; only STRATACK switches the strategy; only a mismatch is put on record; only an arbiter call writes the
bus. -/
structure LocalChange (l : Label) (s u : State) : Prop where
  run : u.run = s.run
  seq : u.seq = s.seq
  res : u.res = s.res
  pay : u.pay = s.pay
  plen : u.plen = s.plen
  host : u.host = s.host
  env : u.env = s.env
  strat : u.strat = s.strat ∨ (l = .stratack ∧ u.strat = .acknowledged)
  errstat : u.errstat = s.errstat ∨ u.errstat = setErrBit .readbackMismatch s.errstat
  bus : callsArbiter l = true ∨ (u.owner = s.owner ∧ u.dir = s.dir ∧ u.csho = s.csho ∧ u.cspi = s.cspi)

/-- The three ways a micro-step can end. -/
inductive MicroOutcome (l : Label) (s : State) : State → Prop where
  | completed {u : State} (hu : LocalChange l s u) : MicroOutcome l s (complete u)
  | raised {c : Cause} (hc : c ≠ .readbackMismatch) : MicroOutcome l s (raiseError c s)
  | wentOn {u : State} {ls : List Label} (hu : LocalChange l s u) (hls : .stratack ∉ ls) : MicroOutcome l s (goto ls u)

variable {l : Label} {s t u : State}

/-! ### The local changes -/

theorem LocalChange.refl (l : Label) (s : State) : LocalChange l s s :=
  ⟨rfl, rfl, rfl, rfl, rfl, rfl, rfl, .inl rfl, .inl rfl, .inr ⟨rfl, rfl, rfl, rfl⟩⟩

/-- The part of the state that a local change leaves alone at most labels. -/
def localFrame (s : State) :=
  ((s.run, s.seq, s.res, s.pay, s.plen, s.host, s.env), (s.strat, s.errstat), (s.owner, s.dir, s.csho, s.cspi))

theorem LocalChange.of_localFrame (l : Label) (h : localFrame u = localFrame s) : LocalChange l s u := by
  simp only [localFrame, Prod.mk.injEq] at h
  obtain ⟨⟨hrun, hseq, hres, hpay, hplen, hhost, henv⟩, ⟨hstrat, herr⟩, hbus⟩ := h
  exact ⟨hrun, hseq, hres, hpay, hplen, hhost, henv, .inl hstrat, .inl herr, .inr hbus⟩

theorem claimBus_localChange {o : Owner} {d : Dir} (hl : callsArbiter l = true) (h : claimBus o d s = .ok u) :
    LocalChange l s u := by
  rw [claimBus_eq] at h
  split at h
  · cases h
    exact ⟨rfl, rfl, rfl, rfl, rfl, rfl, rfl, .inl rfl, .inl rfl, .inl hl⟩
  · cases h

theorem releaseBus_localChange {o : Owner} (hl : callsArbiter l = true) (h : releaseBus o s = .ok u) :
    LocalChange l s u := by
  rw [releaseBus_eq] at h
  split at h
  · cases h
    exact ⟨rfl, rfl, rfl, rfl, rfl, rfl, rfl, .inl rfl, .inl rfl, .inl hl⟩
  · cases h

theorem afterCall_localChange {r : Except Cause State} (h : ∀ u, r = .ok u → LocalChange l s u) :
    LocalChange l s (afterCall r s) := by
  cases r with
  | ok u => exact h u rfl
  | error c => exact .refl l s

theorem sampleData_localFrame (s : State) : localFrame (sampleData s).2 = localFrame s := by
  rw [sampleData_state]
  rfl

theorem recordMismatch_localChange (b v : Byte) (l : Label) (s : State) : LocalChange l s (recordMismatch b v s) :=
  ⟨rfl, rfl, rfl, rfl, rfl, rfl, rfl, .inl rfl, .inr rfl, .inr ⟨rfl, rfl, rfl, rfl⟩⟩

/-! ### The ways of ending -/

theorem MicroOutcome.of_frame_complete (h : localFrame u = localFrame s) : MicroOutcome l s (complete u) :=
  .completed (.of_localFrame l h)

theorem MicroOutcome.of_frame_goto {ls : List Label} (h : localFrame u = localFrame s) (hls : .stratack ∉ ls) :
    MicroOutcome l s (goto ls u) := .wentOn (.of_localFrame l h) hls

/-- A return to the labels below is going on with none of its own. -/
theorem MicroOutcome.of_frame_return (h : localFrame u = localFrame s) : MicroOutcome l s u :=
  MicroOutcome.of_frame_goto (ls := []) h List.not_mem_nil

theorem claimBus_error {o : Owner} {d : Dir} {c : Cause} (h : claimBus o d s = .error c) : c = .contention := by
  rw [claimBus_eq] at h
  split at h <;> cases h
  rfl

theorem releaseBus_error {o : Owner} {c : Cause} (h : releaseBus o s = .error c) : c = .ownership := by
  rw [releaseBus_eq] at h
  split at h <;> cases h
  rfl

theorem completeOrRaise_claim_outcome (o : Owner) (d : Dir) (hl : callsArbiter l = true) :
    MicroOutcome l s (completeOrRaise (claimBus o d s) s) := by
  cases h : claimBus o d s with
  | ok u => exact .completed (claimBus_localChange hl h)
  | error c => cases claimBus_error h; exact .raised (by decide)

theorem completeOrRaise_release_outcome (o : Owner) (hl : callsArbiter l = true) :
    MicroOutcome l s (completeOrRaise (releaseBus o s) s) := by
  cases h : releaseBus o s with
  | ok u => exact .completed (releaseBus_localChange hl h)
  | error c => cases releaseBus_error h; exact .raised (by decide)

theorem claimThen_outcome {o : Owner} {d : Dir} {next : Label} (hl : callsArbiter l = true) (hn : .stratack ≠ next) :
    MicroOutcome l s (claimThen o d next s) := by
  unfold claimThen
  split
  · next u h => exact .wentOn (claimBus_localChange hl h) (by simpa using hn)
  · next c h => cases claimBus_error h; exact .raised (by decide)

theorem afterClaim_outcome {o : Owner} {d : Dir} {next : Label} (hl : callsArbiter l = true) (hn : .stratack ≠ next) :
    MicroOutcome l s (goto [next] (afterCall (claimBus o d s) s)) :=
  .wentOn (afterCall_localChange fun _ => claimBus_localChange hl) (by simpa using hn)

theorem afterRelease_outcome {o : Owner} {next : Label} (hl : callsArbiter l = true) (hn : .stratack ≠ next) :
    MicroOutcome l s (goto [next] (afterCall (releaseBus o s) s)) :=
  .wentOn (afterCall_localChange fun _ => releaseBus_localChange hl) (by simpa using hn)

/-! ### The steps with a test -/

theorem stratack_outcome (s : State) : MicroOutcome .stratack s
    (if s.strat = .acknowledged then raiseError .precondition s else complete { s with strat := .acknowledged }) := by
  split
  · exact .raised (by decide)
  · exact .completed ⟨rfl, rfl, rfl, rfl, rfl, rfl, rfl, .inr ⟨rfl, rfl⟩, .inl rfl, .inr ⟨rfl, rfl, rfl, rfl⟩⟩

theorem stepSb1_outcome (b : Byte) : MicroOutcome l s (stepSb1 b s) := by
  unfold stepSb1
  split
  · exact .of_frame_goto rfl (by simp)
  · exact .raised (by decide)

theorem stepSb5_outcome (b : Byte) : MicroOutcome l s (stepSb5 b s) := by
  unfold stepSb5
  split
  · exact .of_frame_goto rfl (by simp)
  · split <;> exact .of_frame_goto rfl (by simp)

theorem stepSb7_outcome (b : Byte) : MicroOutcome l s (stepSb7 b s) := by
  unfold stepSb7
  split <;> exact .of_frame_goto rfl (by simp)

theorem stepSb7f_outcome (b v : Byte) : MicroOutcome l s (stepSb7f b v s) := by
  unfold stepSb7f
  split
  · exact .of_frame_goto rfl (by simp)
  · exact .wentOn (recordMismatch_localChange b v l s) (by simp)

theorem stepRecv_outcome : MicroOutcome l s (stepRecv s) := by
  unfold stepRecv
  split
  · exact .raised (by decide)
  · split
    · exact .raised (by decide)
    · exact .of_frame_goto rfl (by simp)

theorem stepRb2_outcome : MicroOutcome l s (stepRb2 s) :=
  .of_frame_goto (sampleData_localFrame s) (by simp)

theorem stepDl1_outcome : MicroOutcome l s (stepDl1 s) := by
  unfold stepDl1
  split
  · exact .raised (by decide)
  · exact .of_frame_goto rfl (by simp)

theorem stepDi1_outcome : MicroOutcome l s (stepDi1 s) := by
  unfold stepDi1
  split
  · exact .raised (by decide)
  · split
    · exact .raised (by decide)
    · exact .of_frame_goto rfl (by simp)

theorem stepDl4_eq_next {n : Nat} (h : stepDl4 n s = .next t) : ∃ b, t = goto [.sb1 b, .dl5 n] s := by
  unfold stepDl4 at h
  split at h
  · next b _ => cases h; exact ⟨b, rfl⟩
  · cases h

theorem stepDl5_outcome (n : Nat) : MicroOutcome l s (stepDl5 n s) :=
  .of_frame_goto rfl (by split <;> simp)

theorem stepDr1_outcome : MicroOutcome l s (stepDr1 s) := by
  unfold stepDr1
  split
  · exact .of_frame_complete rfl
  · exact .of_frame_goto rfl (by simp)

theorem stepDr5_outcome : MicroOutcome l s (stepDr5 s) :=
  .of_frame_goto rfl (by split <;> simp)

/-- Every micro-step ends in one of the three ways. -/
theorem micro_outcome (h : micro l s = .next t) : MicroOutcome l s t := by
  cases l with
  | illegal => cases h; exact .raised (by decide)
  | claim o d => cases h; exact completeOrRaise_claim_outcome o d rfl
  | release o => cases h; exact completeOrRaise_release_outcome o rfl
  | stratack => cases h; exact stratack_outcome s
  | setrb v => cases h; exact .of_frame_complete rfl
  | setload x => cases h; exact .of_frame_complete rfl
  | setexec x => cases h; exact .of_frame_complete rfl
  | setlen x => cases h; exact .of_frame_complete rfl
  | take => cases h; exact .of_frame_complete rfl
  | complete => cases h; exact .of_frame_complete rfl
  | sb1 b => cases h; exact stepSb1_outcome b
  | sb2 b => cases h; exact .of_frame_goto rfl (by simp)
  | sb3 b => cases h; exact .of_frame_goto rfl (by simp)
  | sb4 b => cases h; exact .of_frame_goto rfl (by simp)
  | sb5 b => cases h; exact stepSb5_outcome b
  | sb6 b => cases h; exact .of_frame_goto rfl (by simp)
  | sb7 b => cases h; exact stepSb7_outcome b
  | sb7a b => cases h; exact afterRelease_outcome rfl (by simp)
  | sb7b b => cases h; exact afterClaim_outcome rfl (by simp)
  | sb7c b => cases h; exact .of_frame_goto (sampleData_localFrame s) (by simp)
  | sb7d b v => cases h; exact afterRelease_outcome rfl (by simp)
  | sb7e b v => cases h; exact afterClaim_outcome rfl (by simp)
  | sb7f b v => cases h; exact stepSb7f_outcome b v
  | sb8 => cases h; exact .of_frame_return rfl
  | recv => cases h; exact stepRecv_outcome
  | rb1 => cases h; exact .of_frame_goto rfl (by simp)
  | rb2 => cases h; exact stepRb2_outcome
  | rb3 => cases h; exact .of_frame_goto rfl (by simp)
  | rb4 => cases h; exact .of_frame_goto rfl (by simp)
  | rb5 => cases h; exact .of_frame_goto rfl (by simp)
  | rb6 => cases h; exact .of_frame_return rfl
  | dl1 => cases h; exact stepDl1_outcome
  | di1 => cases h; exact stepDi1_outcome
  | dl2 n => cases h; exact claimThen_outcome rfl (by simp)
  | dl3 n => cases h; exact .of_frame_goto rfl (by simp)
  | dl4 n => obtain ⟨b, rfl⟩ := stepDl4_eq_next h; exact .of_frame_goto rfl (by simp)
  | dl5 n => cases h; exact stepDl5_outcome n
  | dl6 => cases h; exact afterRelease_outcome rfl (by simp)
  | dl7 => cases h; exact .of_frame_complete rfl
  | dr1 => cases h; exact stepDr1_outcome
  | dr2 => cases h; exact claimThen_outcome rfl (by simp)
  | dr3 => cases h; exact .of_frame_goto rfl (by simp)
  | dr4 => cases h; exact .of_frame_goto rfl (by simp)
  | dr5 => cases h; exact stepDr5_outcome
  | dr6 => cases h; exact .completed (afterCall_localChange fun _ => releaseBus_localChange rfl)

/-! ### What every micro-step keeps -/

theorem micro_env (h : micro l s = .next t) : t.env = s.env := by
  cases micro_outcome h with
  | completed hu => exact hu.env
  | raised hc => rfl
  | wentOn hu hls => exact hu.env

theorem micro_pay (h : micro l s = .next t) : t.pay = s.pay ∧ t.plen = s.plen := by
  cases micro_outcome h with
  | completed hu => exact ⟨hu.pay, hu.plen⟩
  | raised hc => exact ⟨rfl, rfl⟩
  | wentOn hu hls => exact ⟨hu.pay, hu.plen⟩

/-- Only STRATACK's micro-step writes the strategy, and it only sets it (spec 10_state.md R33). -/
theorem micro_strat (h : micro l s = .next t) : t.strat = s.strat ∨ (l = .stratack ∧ t.strat = .acknowledged) := by
  cases micro_outcome h with
  | completed hu => exact hu.strat
  | raised hc => exact .inl rfl
  | wentOn hu hls => exact hu.strat

/-- The sticky bits stand, or one more is set (spec 10_state.md R37). -/
theorem micro_errstat (h : micro l s = .next t) : t.errstat = s.errstat ∨ ∃ c, t.errstat = setErrBit c s.errstat := by
  cases micro_outcome h with
  | completed hu => exact hu.errstat.imp_right fun h => ⟨_, h⟩
  | raised hc => exact .inr ⟨_, rfl⟩
  | wentOn hu hls => exact hu.errstat.imp_right fun h => ⟨_, h⟩

theorem resCode_eq_four_iff {c : Cause} : c.resCode = 4#3 ↔ c = .readbackMismatch := by
  cases c <;> decide

/-- The code in `RES` is never the mismatch's, which no command raises (spec 10_state.md R36). -/
theorem micro_res (h : micro l s = .next t) (hs : s.res ≠ 4#3) : t.res ≠ 4#3 := by
  cases micro_outcome h with
  | completed hu => simp
  | raised hc => exact fun h => hc (resCode_eq_four_iff.1 h)
  | wentOn hu hls => rwa [goto_res, hu.res]

/-- Only a micro-step that calls the arbiter writes the bus (spec 40_arbiter.md R100). -/
theorem micro_bus (hl : callsArbiter l = false) (h : micro l s = .next t) :
    t.owner = s.owner ∧ t.dir = s.dir ∧ t.csho = s.csho ∧ t.cspi = s.cspi := by
  cases micro_outcome h with
  | completed hu => exact hu.bus.resolve_left (by simp [hl])
  | raised hc => exact ⟨rfl, rfl, rfl, rfl⟩
  | wentOn hu hls => exact hu.bus.resolve_left (by simp [hl])

/-- No micro-step calls STRATACK. -/
theorem micro_stratack_not_mem (h : micro l s = .next t) (hs : .stratack ∉ s.seq) : .stratack ∉ t.seq := by
  cases micro_outcome h with
  | completed hu => simp
  | raised hc => simp
  | wentOn hu hls => simp [hu.seq, hs, hls]

end Sys2Proof.Machine
end

section
/-! A step packaged once: the events due, the host's acts, acceptance and the micro-steps; what each of them keeps, a step
keeps. -/

namespace Sys2Proof.Machine

/-- The labels a command starts with (spec 30_encoding.md R81). -/
def startLabels : Instr → List Label
  | .claim o d => [if legalClaim o d then .claim o d else .illegal]
  | .release o => [if legalRelease o then .release o else .illegal]
  | .sendb b => [.sb1 b, .complete]
  | .sendw x => [.sb1 (encodeWord x).1, .sb1 (encodeWord x).2, .complete]
  | .recvb => [.recv]
  | .drain => [.dr1]
  | .stratack => [.stratack]
  | .setload x => [.setload x]
  | .setexec x => [.setexec x]
  | .setlen x => [.setlen x]
  | .dload => [.dl1]
  | .dloadi => [.di1]
  | .setrb v => [.setrb v]
  | .take => [.take]

/-- What acceptance of a command writes besides `CUR`, `RUN` and the labels: DRAIN clears its count (spec
44_inbound_reader.md R191). -/
def beforeStart : Instr → State → State
  | .drain, s => { s with drainCnt := 0 }
  | _, s => s

@[simp] theorem beforeStart_env (i : Instr) (s : State) : (beforeStart i s).env = s.env := by cases i <;> rfl
@[simp] theorem beforeStart_strat (i : Instr) (s : State) : (beforeStart i s).strat = s.strat := by cases i <;> rfl

/-- Every command is accepted at its labels and runs. -/
theorem exec_eq (i : Instr) (s : State) : exec i s = runCommand (encode i) (startLabels i) (beforeStart i s) := by
  cases i <;> rfl

theorem stratack_not_mem_startLabels {i : Instr} (hi : i ≠ .stratack) : .stratack ∉ startLabels i := by
  cases i with
  | stratack => exact absurd rfl hi
  | claim o d => simp only [startLabels]; split <;> simp
  | release o => simp only [startLabels]; split <;> simp
  | _ => simp [startLabels]

/-- The labels a command word, legal or not, is accepted with. -/
def IsStart (ls : List Label) : Prop := ls = [.illegal] ∨ ∃ i, ls = startLabels i

section Keeps

variable {P : State → Prop}

theorem beforeStart_keeps (hdrain : ∀ s n, P s → P { s with drainCnt := n }) (i : Instr) {s : State} (hs : P s) :
    P (beforeStart i s) := by
  cases i with
  | drain => exact hdrain s 0 hs
  | _ => exact hs

/-- What the events due, the micro-steps and acceptance keep, a command keeps. -/
theorem exec_keeps (henv : ∀ s t, P s → letEnvAct s = .next t → P t) (heng : ∀ s t, P s → engineTurn s = .next t → P t)
    {i : Instr} {s t : State}
    (hstart : (beforeStart i s).run = .ready → P (accept (encode i) (startLabels i) (beforeStart i s)))
    (h : exec i s = .next t) : P t := by
  rw [exec_eq] at h
  exact runCommand_keeps henv heng hstart h

/-- Each part that a step is made of keeps `P`: the events due, a turn of the engine, the host's taking of its next act,
its supplying a payload, DRAIN's clearing of its count, and the acceptance of a command word. -/
structure KeptByParts (P : State → Prop) : Prop where
  env : ∀ s t, P s → letEnvAct s = .next t → P t
  engine : ∀ s t, P s → engineTurn s = .next t → P t
  host : ∀ s acts, P s → P { s with host := acts }
  pay : ∀ s bs, s.run ≠ .busy → P s → P (supplyPay bs s)
  drain : ∀ s n, P s → P { s with drainCnt := n }
  start : ∀ s w ls, s.run = .ready → IsStart ls → P s → P (accept w ls s)

variable {s t : State}

theorem acceptWord_keeps (hP : KeptByParts P) {w : CmdWord} (hs : P s) (h : acceptWord w s = .next t) : P t := by
  unfold acceptWord at h
  split at h
  · next i _ =>
    exact exec_keeps hP.env hP.engine
      (fun hr => hP.start _ _ _ hr (.inr ⟨i, rfl⟩) (beforeStart_keeps hP.drain i hs)) h
  · exact runCommand_keeps hP.env hP.engine (fun hr => hP.start s _ _ hr (.inl rfl) hs) h

theorem hostTurn_keeps (hP : KeptByParts P) (hrun : s.run ≠ .busy) (hs : P s) (h : hostTurn s = .next t) : P t := by
  unfold hostTurn at h
  split at h
  · cases h; exact hs
  · cases h; exact hP.pay _ _ hrun (hP.host s _ hs)
  · exact acceptWord_keeps hP (hP.host s _ hs) h

theorem haltedTurn_keeps (hP : KeptByParts P) (hrun : s.run ≠ .busy) (hs : P s) (h : haltedTurn s = .next t) : P t := by
  unfold haltedTurn at h
  split at h
  · cases h; exact hs
  · cases h; exact hP.pay _ _ hrun (hP.host s _ hs)
  · split at h <;> cases h
    exact hs

theorem turn_keeps (hP : KeptByParts P) (hs : P s) (h : turn s = .next t) : P t := by
  unfold turn at h
  split at h
  · next hrun => exact hostTurn_keeps hP (by simp [hrun]) hs h
  · exact hP.engine s t hs h
  · next hrun => exact haltedTurn_keeps hP (by simp [hrun]) hs h

/-- What each part of a step keeps, a step keeps. -/
theorem step_keeps (hP : KeptByParts P) (hs : P s) (h : step s = .next t) : P t := by
  unfold step at h
  split at h
  · exact hP.env s t hs h
  · obtain ⟨u, hu, hturn⟩ := andThen_eq_next.1 h
    exact turn_keeps hP (hP.env s u hs hu) hturn

/-- What every micro-step keeps at its label, the engine's turn keeps. -/
theorem engineTurn_keeps
    (hmicro : ∀ l rest s t, s.run = .busy → s.seq = l :: rest → P s → micro l { s with seq := rest } = .next t → P t)
    (s t : State) (hs : P s) (h : engineTurn s = .next t) : P t := by
  unfold engineTurn at h
  split at h
  · next l rest hrun hseq => exact hmicro l rest s t hrun hseq hs h
  · cases h; exact hs

end Keeps

end Sys2Proof.Machine
end

section
/-! What the peer touches (spec 10_state.md section 7). -/

namespace Sys2Proof.Machine

/-- From `s` to `t` only the peer's lines, the edge latches, the peer's part of the trace and the schedule moved, and no
latch was cleared. -/
def OnlyPeerActed (s t : State) : Prop :=
  t = { s with otkn := t.otkn, irdy := t.irdy, pdata := t.pdata, ackEdge := t.ackEdge, rdyEdge := t.rdyEdge,
               trace := t.trace, env := t.env }
    ∧ (s.ackEdge = true → t.ackEdge = true) ∧ (s.rdyEdge = true → t.rdyEdge = true)
    ∧ engineTrace t.trace = engineTrace s.trace

theorem OnlyPeerActed.refl (s : State) : OnlyPeerActed s s := ⟨rfl, id, id, rfl⟩

theorem OnlyPeerActed.trans {s t u : State} (h : OnlyPeerActed s t) (h' : OnlyPeerActed t u) : OnlyPeerActed s u := by
  obtain ⟨hst, hack, hrdy, htr⟩ := h
  obtain ⟨htu, hack', hrdy', htr'⟩ := h'
  exact ⟨htu.trans (by rw [hst]), hack' ∘ hack, hrdy' ∘ hrdy, htr'.trans htr⟩

theorem applyEvent_onlyPeerActed {e : Event} (he : e.ofPeer = true) {s t : State} (h : applyEvent e s = .next t) :
    OnlyPeerActed s t := by
  obtain ⟨t', ht', heq, hack, hrdy, htr⟩ := applyEvent_peer he s
  cases ht'.symm.trans h
  exact ⟨heq.trans (by rw [applyEvent_env h]), hack, hrdy, htr⟩

/-- Settles O10: each event due moves only what is the peer's, and so do all of them in order. -/
theorem peerTouchesOnlyItsOwnState : Obligations.PeerTouchesOnlyItsOwnState := by
  intro s t hpeer h
  have hacted : OnlyPeerActed s t := by
    unfold letEnvAct at h
    split at h
    · cases h; exact .refl s
    · next es rest henv =>
      rw [peerOnly, henv, List.all_cons, Bool.and_eq_true] at hpeer
      have hes := List.all_eq_true.1 hpeer.1
      exact applyEvents_keeps (P := OnlyPeerActed s)
        (fun e he u v hu huv => hu.trans (applyEvent_onlyPeerActed (hes e he) huv))
        { s with env := rest } t ⟨rfl, id, id, rfl⟩ h
  obtain ⟨heq, hack, hrdy, htr⟩ := hacted
  exact ⟨heq, hack, hrdy, htr, letEnvAct_env h⟩

end Sys2Proof.Machine
end

section
/-! What no step undoes while no reset is to come: a sticky bit once set, the strategy once switched (spec 10_state.md R33,
R37). -/

namespace Sys2Proof.Machine

/-- Whether a reset is to come is read off the schedule alone. -/
theorem noReset_of_env_eq {s t : State} (h : t.env = s.env) (hs : noReset s = true) : noReset t = true := by
  rwa [noReset, h]

/-- Bit `k` of `ERRSTAT` is set and no reset is to come to clear it. -/
def BitStays (k : Nat) (s : State) : Prop := noReset s = true ∧ s.errstat.getLsbD k = true

theorem EventFrame.errstat_keeps {s t : State} (h : EventFrame s t) {k : Nat} (hs : s.errstat.getLsbD k = true) :
    t.errstat.getLsbD k = true := by
  rcases h.errstat with h | h <;> rw [h]
  · exact hs
  · exact setErrBit_keeps _ _ k hs

theorem micro_errstat_keeps {l : Label} {s t : State} (h : micro l s = .next t) {k : Nat}
    (hs : s.errstat.getLsbD k = true) : t.errstat.getLsbD k = true := by
  rcases micro_errstat h with h | ⟨c, h⟩ <;> rw [h]
  · exact hs
  · exact setErrBit_keeps _ _ k hs

theorem bitStays_letEnvAct {k : Nat} (s t : State) (hs : BitStays k s) (h : letEnvAct s = .next t) : BitStays k t :=
  letEnvAct_keeps_of_noReset (fun _ _ _ he hu huv => (applyEvent_frame he huv).errstat_keeps hu) (fun _ _ hu => hu)
    hs.1 hs.2 h

theorem bitStays_engineTurn {k : Nat} : ∀ s t, BitStays k s → engineTurn s = .next t → BitStays k t :=
  engineTurn_keeps fun _ _ _ _ _ _ hs h => ⟨noReset_of_env_eq (micro_env h) hs.1, micro_errstat_keeps h hs.2⟩

theorem bitStays_keptByParts (k : Nat) : KeptByParts (BitStays k) where
  env := bitStays_letEnvAct
  engine := bitStays_engineTurn
  host _ _ hs := hs
  pay _ _ _ hs := hs
  drain _ _ hs := hs
  start _ _ _ _ _ hs := hs

/-- Settles O51: events without a reset and micro-steps only set bits, and nothing else writes them. -/
theorem errorBitsAreSticky : Obligations.ErrorBitsAreSticky := by
  intro s t k hno h hbit
  exact (step_keeps (bitStays_keptByParts k) ⟨hno, hbit⟩ h).2

/-- The strategy is `v`, no STRATACK is in progress, no reset is to come. -/
def StrategyStands (v : Strategy) (s : State) : Prop := noReset s = true ∧ s.strat = v ∧ .stratack ∉ s.seq

theorem strategyStands_letEnvAct {v : Strategy} (s t : State) (hs : StrategyStands v s) (h : letEnvAct s = .next t) :
    StrategyStands v t := by
  refine letEnvAct_keeps_of_noReset (P := fun s => s.strat = v ∧ .stratack ∉ s.seq) ?_ (fun _ _ hu => hu) hs.1 hs.2 h
  intro e u w he hu huw
  have hf := applyEvent_frame he huw
  refine ⟨hf.strat.trans hu.1, ?_⟩
  rcases hf.seq with hseq | hseq <;> rw [hseq]
  · exact hu.2
  · exact List.not_mem_nil

theorem strategyStands_engineTurn {v : Strategy} :
    ∀ s t, StrategyStands v s → engineTurn s = .next t → StrategyStands v t := by
  refine engineTurn_keeps fun l rest s t _ hseq hs h => ?_
  obtain ⟨hno, hv, hmem⟩ := hs
  rw [hseq, List.mem_cons, not_or] at hmem
  have hstrat : t.strat = s.strat := (micro_strat h).resolve_right fun hl => hmem.1 hl.1.symm
  exact ⟨noReset_of_env_eq (micro_env h) hno, hstrat.trans hv, micro_stratack_not_mem h hmem.2⟩

theorem exec_strat {i : Instr} {s t : State} (hi : i ≠ .stratack) (hno : noReset s = true) (h : exec i s = .next t) :
    t.strat = s.strat := by
  have hstart : StrategyStands s.strat (accept (encode i) (startLabels i) (beforeStart i s)) :=
    ⟨noReset_of_env_eq (beforeStart_env i s) hno, beforeStart_strat i s, stratack_not_mem_startLabels hi⟩
  obtain ⟨-, hstrat, -⟩ :=
    exec_keeps strategyStands_letEnvAct strategyStands_engineTurn (fun _ => hstart) h
  exact hstrat

/-- The strategy is `Acknowledged` and no reset is to come to take it back. -/
def AcknowledgedStays (s : State) : Prop := noReset s = true ∧ s.strat = .acknowledged

theorem acknowledgedStays_letEnvAct (s t : State) (hs : AcknowledgedStays s) (h : letEnvAct s = .next t) :
    AcknowledgedStays t :=
  letEnvAct_keeps_of_noReset (P := fun s => s.strat = .acknowledged)
    (fun _ _ _ he hu huv => (applyEvent_frame he huv).strat.trans hu) (fun _ _ hu => hu) hs.1 hs.2 h

theorem acknowledgedStays_engineTurn : ∀ s t, AcknowledgedStays s → engineTurn s = .next t → AcknowledgedStays t := by
  refine engineTurn_keeps fun l rest s t _ _ hs h => ⟨noReset_of_env_eq (micro_env h) hs.1, ?_⟩
  rcases micro_strat h with hstrat | ⟨_, hstrat⟩
  · exact hstrat.trans hs.2
  · exact hstrat

theorem acknowledgedStays_keptByParts : KeptByParts AcknowledgedStays where
  env := acknowledgedStays_letEnvAct
  engine := acknowledgedStays_engineTurn
  host _ _ hs := hs
  pay _ _ _ hs := hs
  drain _ _ hs := hs
  start _ _ _ _ _ hs := hs

theorem step_acknowledged {s t : State} (hno : noReset s = true) (hs : s.strat = .acknowledged)
    (h : step s = .next t) : t.strat = .acknowledged :=
  (step_keeps acknowledgedStays_keptByParts ⟨hno, hs⟩ h).2

/-- Settles O23: only STRATACK's micro-step writes the strategy, and it writes `Acknowledged`. -/
theorem strategyGoesOneWay : Obligations.StrategyGoesOneWay :=
  ⟨fun _ _ _ => exec_strat, fun _ _ => step_acknowledged⟩

end Sys2Proof.Machine
end

section
/-! The machine's invariant (spec 10_state.md R45): it holds at reset, and every event and every micro-step keeps it. -/

namespace Sys2Proof.Machine

variable {l : Label} {s t u : State}

/-! ### The invariant's parts as propositions -/

theorem invariant_iff : invariant s = true ↔
    arbiterOk s = true ∧ runOk s = true ∧ recordOk s = true ∧ payloadOk s = true := by
  simp only [invariant, Bool.and_eq_true, and_assoc]

theorem handshakeIdle_iff : handshakeIdle s = true ↔
    (s.ofsm = .idle ∧ s.ordy = .inactive) ∧ s.ifsm = .idle ∧ s.itkn = .inactive := by
  simp [handshakeIdle, outboundIdle, inboundIdle]

theorem offering_iff {b : Byte} {m : Fsm} : offering b m s = true ↔
    (((s.owner = .hostOutput ∧ s.dout = b) ∧ s.ofsm = m) ∧ s.ordy = .active) ∧ s.ifsm = .idle ∧ s.itkn = .inactive := by
  simp [offering, inboundIdle]

theorem receiving_iff {m : Fsm} {v : Level} : receiving m v s = true ↔
    ((s.owner = .peerInput ∧ s.ofsm = .idle ∧ s.ordy = .inactive) ∧ s.ifsm = m) ∧ s.itkn = v := by
  simp [receiving, outboundIdle]

theorem recordOk_iff : recordOk s = true ↔ s.errstat.getLsbD 0 = false ∧ s.res ≠ 4#3 := by
  simp [recordOk]

theorem decide_and_iff {p : Prop} [Decidable p] {b : Bool} : (decide p && b) = true ↔ p ∧ b = true := by simp

theorem decide_and_and_iff {p q : Prop} [Decidable p] [Decidable q] {b : Bool} :
    (decide p && decide q && b) = true ↔ (p ∧ q) ∧ b = true := by simp

/-! ### What holds at each label (spec 42_handshake.md R135 to R139; 43_download.md R177; 44_inbound_reader.md R191) -/

@[simp] theorem labelOk_claim (o : Owner) (d : Dir) (s : State) : labelOk (.claim o d) s = true ↔
    legalClaim o d = true ∧ handshakeIdle s = true :=
  Bool.and_eq_true_iff
@[simp] theorem labelOk_release (o : Owner) (s : State) : labelOk (.release o) s = true ↔
    legalRelease o = true ∧ handshakeIdle s = true :=
  Bool.and_eq_true_iff
@[simp] theorem labelOk_sb1 (b : Byte) (s : State) : labelOk (.sb1 b) s = handshakeIdle s := rfl
@[simp] theorem labelOk_sb2 (b : Byte) (s : State) : labelOk (.sb2 b) s = true ↔
    s.owner = .hostOutput ∧ handshakeIdle s = true := decide_and_iff
@[simp] theorem labelOk_sb3 (b : Byte) (s : State) : labelOk (.sb3 b) s = true ↔
    (s.owner = .hostOutput ∧ s.dout = b) ∧ handshakeIdle s = true := decide_and_and_iff
@[simp] theorem labelOk_sb4 (b : Byte) (s : State) : labelOk (.sb4 b) s = true ↔
    (s.owner = .hostOutput ∧ s.dout = b) ∧ handshakeIdle s = true := decide_and_and_iff
@[simp] theorem labelOk_sb5 (b : Byte) (s : State) : labelOk (.sb5 b) s = offering b .readyAsserted s := rfl
@[simp] theorem labelOk_sb6 (b : Byte) (s : State) : labelOk (.sb6 b) s = offering b .acknowledged s := rfl
@[simp] theorem labelOk_sb7 (b : Byte) (s : State) : labelOk (.sb7 b) s = true ↔
    (s.owner = .hostOutput ∧ s.dout = b) ∧ handshakeIdle s = true := decide_and_and_iff
@[simp] theorem labelOk_sb7a (b : Byte) (s : State) : labelOk (.sb7a b) s = true ↔
    (s.owner = .hostOutput ∧ s.dout = b) ∧ handshakeIdle s = true := decide_and_and_iff
@[simp] theorem labelOk_sb7b (b : Byte) (s : State) : labelOk (.sb7b b) s = true ↔
    (s.owner = .none ∧ s.dout = b) ∧ handshakeIdle s = true := decide_and_and_iff
@[simp] theorem labelOk_sb7c (b : Byte) (s : State) : labelOk (.sb7c b) s = true ↔
    (s.owner = .peerInput ∧ s.dout = b) ∧ handshakeIdle s = true := decide_and_and_iff
@[simp] theorem labelOk_sb7d (b v : Byte) (s : State) : labelOk (.sb7d b v) s = true ↔
    (s.owner = .peerInput ∧ s.dout = b) ∧ handshakeIdle s = true := decide_and_and_iff
@[simp] theorem labelOk_sb7e (b v : Byte) (s : State) : labelOk (.sb7e b v) s = true ↔
    (s.owner = .none ∧ s.dout = b) ∧ handshakeIdle s = true := decide_and_and_iff
@[simp] theorem labelOk_sb7f (b v : Byte) (s : State) : labelOk (.sb7f b v) s = true ↔
    (s.owner = .hostOutput ∧ s.dout = b) ∧ handshakeIdle s = true := decide_and_and_iff
@[simp] theorem labelOk_sb8 (s : State) : labelOk .sb8 s = true ↔
    s.owner = .hostOutput ∧ handshakeIdle s = true := decide_and_iff
@[simp] theorem labelOk_rb1 (s : State) : labelOk .rb1 s = receiving .idle .inactive s := rfl
@[simp] theorem labelOk_rb2 (s : State) : labelOk .rb2 s = receiving .readyAsserted .inactive s := rfl
@[simp] theorem labelOk_rb3 (s : State) : labelOk .rb3 s = receiving .readyAsserted .inactive s := rfl
@[simp] theorem labelOk_rb4 (s : State) : labelOk .rb4 s = receiving .acknowledged .active s := rfl
@[simp] theorem labelOk_rb5 (s : State) : labelOk .rb5 s = receiving .acknowledged .active s := rfl
@[simp] theorem labelOk_rb6 (s : State) : labelOk .rb6 s = receiving .acknowledged .inactive s := rfl
@[simp] theorem labelOk_dl2 (n : Nat) (s : State) : labelOk (.dl2 n) s = true ↔
    (n = s.plen ∧ n ≤ 65535) ∧ handshakeIdle s = true := decide_and_and_iff
@[simp] theorem labelOk_dl3 (n : Nat) (s : State) : labelOk (.dl3 n) s = true ↔
    ((n = s.plen ∧ n ≤ 65535) ∧ s.owner = .hostOutput) ∧ handshakeIdle s = true := by
  change (decide _ && decide _ && decide _ && _) = true ↔ _
  simp only [Bool.and_eq_true, decide_eq_true_eq]
@[simp] theorem labelOk_dl4 (n : Nat) (s : State) : labelOk (.dl4 n) s = true ↔
    (((n = s.plen ∧ n ≤ 65535) ∧ s.idx.toNat < n + 7) ∧ s.owner = .hostOutput) ∧ handshakeIdle s = true := by
  change (decide _ && decide _ && decide _ && decide _ && _) = true ↔ _
  simp only [Bool.and_eq_true, decide_eq_true_eq]
@[simp] theorem labelOk_dl5 (n : Nat) (s : State) : labelOk (.dl5 n) s = true ↔
    (((n = s.plen ∧ n ≤ 65535) ∧ s.idx.toNat < n + 7) ∧ s.owner = .hostOutput) ∧ handshakeIdle s = true := by
  change (decide _ && decide _ && decide _ && decide _ && _) = true ↔ _
  simp only [Bool.and_eq_true, decide_eq_true_eq]
@[simp] theorem labelOk_dl6 (s : State) : labelOk .dl6 s = true ↔
    s.owner = .hostOutput ∧ handshakeIdle s = true := decide_and_iff
@[simp] theorem labelOk_dr3 (s : State) : labelOk .dr3 s = true ↔
    s.owner = .peerInput ∧ handshakeIdle s = true := decide_and_iff
@[simp] theorem labelOk_dr4 (s : State) : labelOk .dr4 s = true ↔
    s.owner = .peerInput ∧ handshakeIdle s = true := decide_and_iff
@[simp] theorem labelOk_dr5 (s : State) : labelOk .dr5 s = true ↔
    s.owner = .peerInput ∧ handshakeIdle s = true := decide_and_iff
@[simp] theorem labelOk_dr6 (s : State) : labelOk .dr6 s = true ↔
    s.owner = .peerInput ∧ handshakeIdle s = true := decide_and_iff

/-! ### Standing at a label -/

/-- What must hold of the labels that wait below `l` (spec 10_state.md R49). -/
def belowOk (l : Label) (rest : List Label) (s : State) : Bool :=
  if l.ofSend then sendReturnOk l.isSb1 rest s else if l.ofReceive then receiveReturnOk rest else rest.isEmpty

theorem belowOk_sb1 (b : Byte) (rest : List Label) (s : State) :
    belowOk (.sb1 b) rest s = sendReturnOk true rest s := rfl

theorem belowOk_rb1 (rest : List Label) (s : State) : belowOk .rb1 rest s = receiveReturnOk rest := rfl

theorem sendReturnOk_dl5 {first : Bool} {n : Nat} : sendReturnOk first [.dl5 n] s = true ↔
    ((n = s.plen ∧ n ≤ 65535) ∧ s.idx.toNat < n + 7) ∧ (first = true → s.owner = .hostOutput) := by
  cases first <;> simp [sendReturnOk]

/-- The engine is about to take the micro-step at `l`, with `s.seq` the labels to return to: what `micro` may assume. -/
structure AtLabel (l : Label) (s : State) : Prop where
  run : s.run = .busy
  label : labelOk l s = true
  below : belowOk l s.seq s = true

theorem seqOk_cons {rest : List Label} (hseq : s.seq = l :: rest) :
    seqOk s = (labelOk l s && belowOk l rest s) := by
  simp only [seqOk, hseq]
  rfl

theorem runOk_of_atLabel {rest : List Label} (hseq : s.seq = l :: rest) (h : AtLabel l { s with seq := rest }) :
    runOk s = true := by
  have hrun : s.run = .busy := h.run
  simp only [runOk, hrun, seqOk_cons hseq, Bool.and_eq_true]
  exact ⟨h.label, h.below⟩

theorem atLabel_of_runOk {rest : List Label} (hrun : s.run = .busy) (hseq : s.seq = l :: rest) (h : runOk s = true) :
    AtLabel l { s with seq := rest } := by
  simp only [runOk, hrun, seqOk_cons hseq, Bool.and_eq_true] at h
  exact ⟨hrun, h.1, h.2⟩

theorem runOk_goto (h : AtLabel l u) : runOk (goto [l] u) = true := runOk_of_atLabel (s := goto [l] u) rfl h

theorem runOk_complete (h : handshakeIdle s = true) : runOk (complete s) = true := by
  rw [runOk, complete_run]
  exact h

theorem runOk_raiseError {c : Cause} (h : handshakeIdle s = true) : runOk (raiseError c s) = true := by
  rw [runOk, raiseError_run]
  exact h

theorem sendReturnOk_next {first : Bool} {rest : List Label} (hplen : u.plen = s.plen) (hidx : u.idx = s.idx)
    (h : sendReturnOk first rest s = true) : sendReturnOk false rest u = true := by
  unfold sendReturnOk at h ⊢
  split at h
  · rfl
  · rfl
  · simp only [Bool.and_eq_true] at h
    simp [hplen, hidx, h.1.1.1, h.1.1.2, h.1.2]
  · cases h


/-- From one step of `SendByte` to the next: the labels below still fit. -/
theorem AtLabel.send_next {l' : Label} (h : AtLabel l s) (hu : LocalChange l s u) (hidx : u.idx = s.idx)
    (hl : l.ofSend = true) (hl' : l'.ofSend = true ∧ l'.isSb1 = false) (hok : labelOk l' u = true) : AtLabel l' u := by
  have hbelow := h.below
  rw [belowOk, if_pos hl] at hbelow
  refine ⟨hu.run.trans h.run, hok, ?_⟩
  rw [belowOk, if_pos hl'.1, hl'.2, hu.seq]
  exact sendReturnOk_next hu.plen hidx hbelow

/-- From one step of `ReceiveByte` to the next. -/
theorem AtLabel.receive_next {l' : Label} (h : AtLabel l s) (hu : LocalChange l s u)
    (hl : l.ofSend = false ∧ l.ofReceive = true) (hl' : l'.ofSend = false ∧ l'.ofReceive = true)
    (hok : labelOk l' u = true) : AtLabel l' u := by
  have hbelow := h.below
  simp only [belowOk, hl, Bool.false_eq_true, if_false, if_true] at hbelow
  refine ⟨hu.run.trans h.run, hok, ?_⟩
  simpa only [belowOk, hl', Bool.false_eq_true, if_false, if_true, hu.seq] using hbelow

/-- From one step of a command's own to the next. -/
theorem AtLabel.flow_next {l' : Label} (h : AtLabel l s) (hu : LocalChange l s u)
    (hl : l.ofSend = false ∧ l.ofReceive = false) (hl' : l'.ofSend = false ∧ l'.ofReceive = false)
    (hok : labelOk l' u = true) : AtLabel l' u := by
  have hbelow := h.below
  simp only [belowOk, hl, Bool.false_eq_true, if_false] at hbelow
  refine ⟨hu.run.trans h.run, hok, ?_⟩
  simpa only [belowOk, hl', Bool.false_eq_true, if_false, hu.seq] using hbelow

/-- `SendByte` has returned to a label that may wait below it. -/
theorem runOk_sendReturn (h : AtLabel .sb8 s) : runOk s = true := by
  have hbelow : sendReturnOk false s.seq s = true := h.below
  have hlabel := h.label
  rw [labelOk_sb8] at hlabel
  obtain ⟨howner, hidle⟩ := hlabel
  unfold sendReturnOk at hbelow
  split at hbelow
  · next hseq => exact runOk_of_atLabel hseq ⟨h.run, hidle, rfl⟩
  · next hseq => exact runOk_of_atLabel hseq ⟨h.run, hidle, rfl⟩
  · next n hseq =>
    have hlabel : labelOk (.dl5 n) s = true := by simpa [howner, hidle] using hbelow
    exact runOk_of_atLabel hseq ⟨h.run, hlabel, rfl⟩
  · cases hbelow

/-- `ReceiveByte` has returned to a label that may wait below it. -/
theorem runOk_receiveReturn (h : AtLabel .rb6 s) : runOk { s with ifsm := .idle } = true := by
  have hbelow : receiveReturnOk s.seq = true := h.below
  have hlabel := h.label
  rw [labelOk_rb6, receiving_iff] at hlabel
  obtain ⟨⟨⟨howner, hout⟩, -⟩, hitkn⟩ := hlabel
  have hidle : handshakeIdle { s with ifsm := .idle } = true := handshakeIdle_iff.2 ⟨hout, rfl, hitkn⟩
  unfold receiveReturnOk at hbelow
  split at hbelow
  · next hseq => exact runOk_of_atLabel (s := { s with ifsm := .idle }) hseq ⟨h.run, hidle, rfl⟩
  · next hseq =>
    exact runOk_of_atLabel (s := { s with ifsm := .idle }) hseq ⟨h.run, (labelOk_dr4 _).2 ⟨howner, hidle⟩, rfl⟩
  · cases hbelow

/-! ### The steps of `SendByte` -/

theorem stepSb1_runOk {b : Byte} (h : AtLabel (.sb1 b) s) : runOk (stepSb1 b s) = true := by
  have hidle : handshakeIdle s = true := h.label
  unfold stepSb1
  split
  · next hc => exact runOk_goto (h.send_next (.refl _ s) rfl rfl ⟨rfl, rfl⟩ (by simp [hc, hidle]))
  · exact runOk_raiseError hidle

theorem stepSb2_runOk {b : Byte} (h : AtLabel (.sb2 b) s) : runOk (goto [.sb3 b] (driveData b s)) = true :=
  runOk_goto (h.send_next (.of_localFrame _ rfl) rfl rfl ⟨rfl, rfl⟩
    (by simpa [handshakeIdle_iff] using h.label))

theorem stepSb3_runOk {b : Byte} (h : AtLabel (.sb3 b) s) : runOk (stepSb3 b s) = true :=
  runOk_goto (h.send_next (.of_localFrame _ rfl) rfl rfl ⟨rfl, rfl⟩ h.label)

theorem stepSb4_runOk {b : Byte} (h : AtLabel (.sb4 b) s) : runOk (stepSb4 b s) = true := by
  have hlabel := h.label
  rw [labelOk_sb4, handshakeIdle_iff] at hlabel
  exact runOk_goto (h.send_next (.of_localFrame _ rfl) rfl rfl ⟨rfl, rfl⟩
    (by simp [offering_iff, assertLine, hlabel]))

theorem stepSb5_runOk {b : Byte} (h : AtLabel (.sb5 b) s) : runOk (stepSb5 b s) = true := by
  have hlabel := h.label
  rw [labelOk_sb5, offering_iff] at hlabel
  have hend : runOk (goto [.sb6 b] { s with ofsm := .acknowledged }) = true :=
    runOk_goto (h.send_next (.of_localFrame _ rfl) rfl rfl ⟨rfl, rfl⟩ (by simp [offering_iff, hlabel]))
  unfold stepSb5
  split
  · exact hend
  · split
    · exact hend
    · exact runOk_goto h

theorem stepSb6_runOk {b : Byte} (h : AtLabel (.sb6 b) s) : runOk (stepSb6 b s) = true := by
  have hlabel := h.label
  rw [labelOk_sb6, offering_iff] at hlabel
  exact runOk_goto (h.send_next (.of_localFrame _ rfl) rfl rfl ⟨rfl, rfl⟩
    (by simp [handshakeIdle_iff, deassertLine, hlabel]))

theorem stepSb7_runOk {b : Byte} (h : AtLabel (.sb7 b) s) : runOk (stepSb7 b s) = true := by
  have hlabel := h.label
  rw [labelOk_sb7] at hlabel
  unfold stepSb7
  split
  · exact runOk_goto (h.send_next (.refl _ s) rfl rfl ⟨rfl, rfl⟩ h.label)
  · exact runOk_goto (h.send_next (.refl _ s) rfl rfl ⟨rfl, rfl⟩ (by simp [hlabel]))


theorem exists_sampleData_eq (s : State) : ∃ tr n, (sampleData s).2 = { s with trace := tr, freeCount := n } :=
  ⟨_, _, sampleData_state s⟩

theorem stepSb7c_runOk {b : Byte} (h : AtLabel (.sb7c b) s) : runOk (stepSb7c b s) = true := by
  have hlabel := h.label
  rw [labelOk_sb7c, handshakeIdle_iff] at hlabel
  obtain ⟨tr, n, hsample⟩ := exists_sampleData_eq s
  refine runOk_goto (h.send_next (.of_localFrame _ (sampleData_localFrame s)) ?_ rfl ⟨rfl, rfl⟩ ?_)
  · rw [hsample]
  · rw [hsample, labelOk_sb7d, handshakeIdle_iff]
    exact hlabel

theorem stepSb7f_runOk {b v : Byte} (h : AtLabel (.sb7f b v) s) : runOk (stepSb7f b v s) = true := by
  have hlabel := h.label
  rw [labelOk_sb7f, handshakeIdle_iff] at hlabel
  unfold stepSb7f
  split
  · exact runOk_goto (h.send_next (.refl _ s) rfl rfl ⟨rfl, rfl⟩ (by simp [handshakeIdle_iff, hlabel]))
  · exact runOk_goto (h.send_next (recordMismatch_localChange b v _ s) rfl rfl ⟨rfl, rfl⟩
      (by simp [recordMismatch, handshakeIdle_iff, hlabel]))

/-! ### The arbiter inside a command -/

/-- A claim of the free bus changes who holds it, nothing that a label speaks of besides. -/
theorem exists_claimBus_ok {o : Owner} (d : Dir) (h : s.owner = .none) :
    ∃ csho cspi tr, claimBus o d s = .ok { s with owner := o, dir := d, csho := csho, cspi := cspi, trace := tr } := by
  rw [claimBus_eq, if_pos h]
  exact ⟨_, _, _, rfl⟩

theorem exists_releaseBus_ok {o : Owner} (h : s.owner = o) :
    ∃ csho cspi tr,
      releaseBus o s = .ok { s with owner := .none, dir := .input, csho := csho, cspi := cspi, trace := tr } := by
  rw [releaseBus_eq, if_pos h]
  exact ⟨_, _, _, rfl⟩

/-- A release inside `SendByte` (SB7a, SB7d) frees the bus and goes on. -/
theorem AtLabel.send_release {l' : Label} {o : Owner} {b : Byte} (h : AtLabel l s) (hcall : callsArbiter l = true)
    (hl : l.ofSend = true) (hl' : l'.ofSend = true ∧ l'.isSb1 = false)
    (hs : (s.owner = o ∧ s.dout = b) ∧ handshakeIdle s = true)
    (hok : ∀ u : State, (u.owner = .none ∧ u.dout = b) ∧ handshakeIdle u = true → labelOk l' u = true) :
    runOk (goto [l'] (afterCall (releaseBus o s) s)) = true := by
  obtain ⟨⟨howner, hdout⟩, hidle⟩ := hs
  obtain ⟨csho, cspi, tr, hr⟩ := exists_releaseBus_ok howner
  have hu := releaseBus_localChange hcall hr
  rw [hr]
  exact runOk_goto (h.send_next hu rfl hl hl' (hok _ ⟨⟨rfl, hdout⟩, hidle⟩))

/-- A claim inside `SendByte` (SB7b, SB7e) takes the free bus and goes on. -/
theorem AtLabel.send_claim {l' : Label} {o : Owner} {d : Dir} {b : Byte} (h : AtLabel l s)
    (hcall : callsArbiter l = true) (hl : l.ofSend = true) (hl' : l'.ofSend = true ∧ l'.isSb1 = false)
    (hs : (s.owner = .none ∧ s.dout = b) ∧ handshakeIdle s = true)
    (hok : ∀ u : State, (u.owner = o ∧ u.dout = b) ∧ handshakeIdle u = true → labelOk l' u = true) :
    runOk (goto [l'] (afterCall (claimBus o d s) s)) = true := by
  obtain ⟨⟨howner, hdout⟩, hidle⟩ := hs
  obtain ⟨csho, cspi, tr, hr⟩ := exists_claimBus_ok (o := o) d howner
  have hu := claimBus_localChange hcall hr
  rw [hr]
  exact runOk_goto (h.send_next hu rfl hl hl' (hok _ ⟨⟨rfl, hdout⟩, hidle⟩))

theorem claimBus_handshakeIdle {o : Owner} {d : Dir} (h : claimBus o d s = .ok u) (hidle : handshakeIdle s = true) :
    handshakeIdle u = true := by
  rw [claimBus_eq] at h
  split at h <;> cases h
  exact hidle

theorem releaseBus_handshakeIdle {o : Owner} (h : releaseBus o s = .ok u) (hidle : handshakeIdle s = true) :
    handshakeIdle u = true := by
  rw [releaseBus_eq] at h
  split at h <;> cases h
  exact hidle

theorem afterCall_handshakeIdle {r : Except Cause State} (hr : ∀ u, r = .ok u → handshakeIdle u = true)
    (hidle : handshakeIdle s = true) : handshakeIdle (afterCall r s) = true := by
  cases r with
  | ok u => exact hr u rfl
  | error c => exact hidle

theorem completeOrRaise_runOk {r : Except Cause State} (hr : ∀ u, r = .ok u → handshakeIdle u = true)
    (hidle : handshakeIdle s = true) : runOk (completeOrRaise r s) = true := by
  cases r with
  | ok u => exact runOk_complete (hr u rfl)
  | error c => exact runOk_raiseError hidle

/-- DL2 and DR2: the claim goes on with the bus held, or ends the command. -/
theorem claimThen_runOk {o : Owner} {d : Dir} {next : Label} (h : AtLabel l s) (hcall : callsArbiter l = true)
    (hl : l.ofSend = false ∧ l.ofReceive = false) (hn : next.ofSend = false ∧ next.ofReceive = false)
    (hidle : handshakeIdle s = true)
    (hok : ∀ u : State, u.owner = o → u.plen = s.plen → handshakeIdle u = true → labelOk next u = true) :
    runOk (claimThen o d next s) = true := by
  unfold claimThen
  split
  · next u hu =>
    have hlocal := claimBus_localChange hcall hu
    have howner : u.owner = o := by
      rw [claimBus_eq] at hu
      split at hu <;> cases hu
      rfl
    exact runOk_goto (h.flow_next hlocal hl hn (hok u howner hlocal.plen (claimBus_handshakeIdle hu hidle)))
  · exact runOk_raiseError hidle

/-! ### The steps of `ReceiveByte` -/

theorem stepRecv_runOk (h : AtLabel .recv s) : runOk (stepRecv s) = true := by
  have hidle : handshakeIdle s = true := h.label
  unfold stepRecv
  split
  · exact runOk_raiseError hidle
  · next hc =>
    split
    · exact runOk_raiseError hidle
    · have hseq : s.seq = [] := List.isEmpty_iff.1 h.below
      rw [not_not] at hc
      rw [handshakeIdle_iff] at hidle
      refine runOk_goto (l := .rb1) (u := goto [.complete] s) ⟨h.run, ?_, ?_⟩
      · rw [labelOk_rb1, receiving_iff]
        exact ⟨⟨⟨hc.1, hidle.1⟩, hidle.2.1⟩, hidle.2.2⟩
      · rw [belowOk_rb1, goto_seq, hseq]
        rfl

theorem stepRb1_runOk (h : AtLabel .rb1 s) : runOk (goto [.rb2] { s with ifsm := .readyAsserted }) = true := by
  have hlabel := h.label
  rw [labelOk_rb1, receiving_iff] at hlabel
  exact runOk_goto (h.receive_next (.of_localFrame _ rfl) ⟨rfl, rfl⟩ ⟨rfl, rfl⟩ (by simp [receiving_iff, hlabel]))

theorem stepRb2_runOk (h : AtLabel .rb2 s) : runOk (stepRb2 s) = true := by
  have hlabel := h.label
  rw [labelOk_rb2, receiving_iff] at hlabel
  obtain ⟨tr, n, hsample⟩ := exists_sampleData_eq s
  refine runOk_goto (h.receive_next (.of_localFrame _ (sampleData_localFrame s)) ⟨rfl, rfl⟩ ⟨rfl, rfl⟩ ?_)
  simp [receiving_iff, hsample, hlabel]

theorem stepRb3_runOk (h : AtLabel .rb3 s) :
    runOk (goto [.rb4] { assertLine .itkn s with ifsm := .acknowledged }) = true := by
  have hlabel := h.label
  rw [labelOk_rb3, receiving_iff] at hlabel
  exact runOk_goto (h.receive_next (.of_localFrame _ rfl) ⟨rfl, rfl⟩ ⟨rfl, rfl⟩
    (by simp [receiving_iff, assertLine, hlabel]))

theorem stepRb4_runOk (h : AtLabel .rb4 s) : runOk (goto [.rb5] s) = true :=
  runOk_goto (h.receive_next (.refl _ s) ⟨rfl, rfl⟩ ⟨rfl, rfl⟩ h.label)

theorem stepRb5_runOk (h : AtLabel .rb5 s) : runOk (goto [.rb6] (deassertLine .itkn s)) = true := by
  have hlabel := h.label
  rw [labelOk_rb5, receiving_iff] at hlabel
  exact runOk_goto (h.receive_next (.of_localFrame _ rfl) ⟨rfl, rfl⟩ ⟨rfl, rfl⟩
    (by simp [receiving_iff, deassertLine, hlabel]))

/-! ### The steps of the downloads -/

theorem stepDl1_runOk (h : AtLabel .dl1 s) : runOk (stepDl1 s) = true := by
  have hidle : handshakeIdle s = true := h.label
  unfold stepDl1
  split
  · exact runOk_raiseError hidle
  · next hn =>
    exact runOk_goto (h.flow_next (.refl _ s) ⟨rfl, rfl⟩ ⟨rfl, rfl⟩ (by simp [hidle]; omega))

theorem stepDi1_runOk (h : AtLabel .di1 s) : runOk (stepDi1 s) = true := by
  have hidle : handshakeIdle s = true := h.label
  unfold stepDi1
  split
  · exact runOk_raiseError hidle
  · next hn =>
    split
    · exact runOk_raiseError hidle
    · exact runOk_goto (h.flow_next (.refl _ s) ⟨rfl, rfl⟩ ⟨rfl, rfl⟩ (by simp [hidle]; omega))

theorem stepDl2_runOk {n : Nat} (h : AtLabel (.dl2 n) s) :
    runOk (claimThen .hostOutput .output (.dl3 n) s) = true := by
  have hlabel := h.label
  rw [labelOk_dl2] at hlabel
  obtain ⟨⟨hn, hmax⟩, hidle⟩ := hlabel
  refine claimThen_runOk h rfl ⟨rfl, rfl⟩ ⟨rfl, rfl⟩ hidle fun u howner hplen hu => ?_
  exact (labelOk_dl3 n u).2 ⟨⟨⟨hn.trans hplen.symm, hmax⟩, howner⟩, hu⟩

theorem stepDl3_runOk {n : Nat} (h : AtLabel (.dl3 n) s) : runOk (goto [.dl4 n] { s with idx := 0#17 }) = true := by
  have hlabel := h.label
  rw [labelOk_dl3] at hlabel
  obtain ⟨⟨⟨hn, hmax⟩, howner⟩, hidle⟩ := hlabel
  exact runOk_goto (h.flow_next (.of_localFrame _ rfl) ⟨rfl, rfl⟩ ⟨rfl, rfl⟩
    ((labelOk_dl4 n _).2 ⟨⟨⟨⟨hn, hmax⟩, Nat.succ_pos _⟩, howner⟩, hidle⟩))

theorem stepDl4_runOk {n : Nat} (h : AtLabel (.dl4 n) s) (b : Byte) : runOk (goto [.sb1 b, .dl5 n] s) = true := by
  have hlabel := h.label
  rw [labelOk_dl4] at hlabel
  obtain ⟨⟨⟨⟨hn, hmax⟩, hidx⟩, howner⟩, hidle⟩ := hlabel
  have hseq : s.seq = [] := List.isEmpty_iff.1 h.below
  refine runOk_goto (l := .sb1 b) (u := goto [.dl5 n] s) ⟨h.run, hidle, ?_⟩
  rw [belowOk_sb1, goto_seq, hseq, List.append_nil, sendReturnOk_dl5]
  exact ⟨⟨⟨hn, hmax⟩, hidx⟩, fun _ => howner⟩

theorem stepDl5_runOk {n : Nat} (h : AtLabel (.dl5 n) s) : runOk (stepDl5 n s) = true := by
  have hlabel := h.label
  rw [labelOk_dl5] at hlabel
  obtain ⟨⟨⟨⟨hn, hmax⟩, hidx⟩, howner⟩, hidle⟩ := hlabel
  unfold stepDl5
  split
  · next hmore =>
    exact runOk_goto (h.flow_next (.of_localFrame _ rfl) ⟨rfl, rfl⟩ ⟨rfl, rfl⟩
      ((labelOk_dl4 n _).2 ⟨⟨⟨⟨hn, hmax⟩, hmore⟩, howner⟩, hidle⟩))
  · exact runOk_goto (h.flow_next (.of_localFrame _ rfl) ⟨rfl, rfl⟩ ⟨rfl, rfl⟩ ((labelOk_dl6 _).2 ⟨howner, hidle⟩))

theorem stepDl6_runOk (h : AtLabel .dl6 s) :
    runOk (goto [.dl7] (afterCall (releaseBus .hostOutput s) s)) = true := by
  have hlabel := h.label
  rw [labelOk_dl6] at hlabel
  refine runOk_goto (h.flow_next (afterCall_localChange fun _ => releaseBus_localChange rfl) ⟨rfl, rfl⟩ ⟨rfl, rfl⟩ ?_)
  exact afterCall_handshakeIdle (fun u hu => releaseBus_handshakeIdle hu hlabel.2) hlabel.2

/-! ### The steps of DRAIN -/

theorem stepDr1_runOk (h : AtLabel .dr1 s) : runOk (stepDr1 s) = true := by
  unfold stepDr1
  split
  · exact runOk_complete h.label
  · exact runOk_goto (h.flow_next (.refl _ s) ⟨rfl, rfl⟩ ⟨rfl, rfl⟩ h.label)

theorem stepDr2_runOk (h : AtLabel .dr2 s) : runOk (claimThen .peerInput .input .dr3 s) = true :=
  claimThen_runOk h rfl ⟨rfl, rfl⟩ ⟨rfl, rfl⟩ h.label fun u howner _ hu => (labelOk_dr3 u).2 ⟨howner, hu⟩

theorem stepDr3_runOk (h : AtLabel .dr3 s) : runOk (goto [.rb1, .dr4] s) = true := by
  have hlabel := h.label
  rw [labelOk_dr3, handshakeIdle_iff] at hlabel
  obtain ⟨howner, hout, hin⟩ := hlabel
  have hseq : s.seq = [] := List.isEmpty_iff.1 h.below
  refine runOk_goto (l := .rb1) (u := goto [.dr4] s) ⟨h.run, ?_, ?_⟩
  · rw [labelOk_rb1, receiving_iff]
    exact ⟨⟨⟨howner, hout⟩, hin.1⟩, hin.2⟩
  · rw [belowOk_rb1, goto_seq, hseq]
    rfl

theorem stepDr4_runOk (h : AtLabel .dr4 s) : runOk (goto [.dr5] { s with drainCnt := s.drainCnt + 1 }) = true :=
  runOk_goto (h.flow_next (.of_localFrame _ rfl) ⟨rfl, rfl⟩ ⟨rfl, rfl⟩ h.label)

theorem stepDr5_runOk (h : AtLabel .dr5 s) : runOk (stepDr5 s) = true := by
  unfold stepDr5
  split
  · exact runOk_goto (h.flow_next (.refl _ s) ⟨rfl, rfl⟩ ⟨rfl, rfl⟩ h.label)
  · exact runOk_goto (h.flow_next (.refl _ s) ⟨rfl, rfl⟩ ⟨rfl, rfl⟩ h.label)

theorem stepDr6_runOk (h : AtLabel .dr6 s) : runOk (complete (afterCall (releaseBus .peerInput s) s)) = true := by
  have hlabel := h.label
  rw [labelOk_dr6] at hlabel
  exact runOk_complete (afterCall_handshakeIdle (fun u hu => releaseBus_handshakeIdle hu hlabel.2) hlabel.2)

/-! ### Every micro-step -/

theorem stratack_runOk (h : AtLabel .stratack s) : runOk
    (if s.strat = .acknowledged then raiseError .precondition s else complete { s with strat := .acknowledged }) =
      true := by
  split
  · exact runOk_raiseError h.label
  · exact runOk_complete (s := { s with strat := .acknowledged }) h.label

/-- Every micro-step leaves the engine at rest or at a label the rules can bring it to. -/
theorem micro_runOk (hl : AtLabel l s) (h : micro l s = .next t) : runOk t = true := by
  cases l with
  | illegal => cases h; exact runOk_raiseError hl.label
  | claim o d =>
    cases h
    have hidle := ((labelOk_claim o d s).1 hl.label).2
    exact completeOrRaise_runOk (fun u hu => claimBus_handshakeIdle hu hidle) hidle
  | release o =>
    cases h
    have hidle := ((labelOk_release o s).1 hl.label).2
    exact completeOrRaise_runOk (fun u hu => releaseBus_handshakeIdle hu hidle) hidle
  | stratack => cases h; exact stratack_runOk hl
  | setrb v => cases h; exact runOk_complete (s := { s with rben := v }) hl.label
  | setload x => cases h; exact runOk_complete (s := { s with loadAddr := x }) hl.label
  | setexec x => cases h; exact runOk_complete (s := { s with execAddr := x }) hl.label
  | setlen x => cases h; exact runOk_complete (s := { s with length := x }) hl.label
  | take => cases h; exact runOk_complete (s := { emit (.sink s.inbuf) s with inbuf := [] }) hl.label
  | complete => cases h; exact runOk_complete hl.label
  | sb1 b => cases h; exact stepSb1_runOk hl
  | sb2 b => cases h; exact stepSb2_runOk hl
  | sb3 b => cases h; exact stepSb3_runOk hl
  | sb4 b => cases h; exact stepSb4_runOk hl
  | sb5 b => cases h; exact stepSb5_runOk hl
  | sb6 b => cases h; exact stepSb6_runOk hl
  | sb7 b => cases h; exact stepSb7_runOk hl
  | sb7a b =>
    cases h
    exact hl.send_release rfl rfl ⟨rfl, rfl⟩ ((labelOk_sb7a b s).1 hl.label) fun u => (labelOk_sb7b b u).2
  | sb7b b =>
    cases h
    exact hl.send_claim rfl rfl ⟨rfl, rfl⟩ ((labelOk_sb7b b s).1 hl.label) fun u => (labelOk_sb7c b u).2
  | sb7c b => cases h; exact stepSb7c_runOk hl
  | sb7d b v =>
    cases h
    exact hl.send_release rfl rfl ⟨rfl, rfl⟩ ((labelOk_sb7d b v s).1 hl.label) fun u => (labelOk_sb7e b v u).2
  | sb7e b v =>
    cases h
    exact hl.send_claim rfl rfl ⟨rfl, rfl⟩ ((labelOk_sb7e b v s).1 hl.label) fun u => (labelOk_sb7f b v u).2
  | sb7f b v => cases h; exact stepSb7f_runOk hl
  | sb8 => cases h; exact runOk_sendReturn hl
  | recv => cases h; exact stepRecv_runOk hl
  | rb1 => cases h; exact stepRb1_runOk hl
  | rb2 => cases h; exact stepRb2_runOk hl
  | rb3 => cases h; exact stepRb3_runOk hl
  | rb4 => cases h; exact stepRb4_runOk hl
  | rb5 => cases h; exact stepRb5_runOk hl
  | rb6 => cases h; exact runOk_receiveReturn hl
  | dl1 => cases h; exact stepDl1_runOk hl
  | di1 => cases h; exact stepDi1_runOk hl
  | dl2 n => cases h; exact stepDl2_runOk hl
  | dl3 n => cases h; exact stepDl3_runOk hl
  | dl4 n => obtain ⟨b, rfl⟩ := stepDl4_eq_next h; exact stepDl4_runOk hl b
  | dl5 n => cases h; exact stepDl5_runOk hl
  | dl6 => cases h; exact stepDl6_runOk hl
  | dl7 => cases h; exact runOk_complete hl.label
  | dr1 => cases h; exact stepDr1_runOk hl
  | dr2 => cases h; exact stepDr2_runOk hl
  | dr3 => cases h; exact stepDr3_runOk hl
  | dr4 => cases h; exact stepDr4_runOk hl
  | dr5 => cases h; exact stepDr5_runOk hl
  | dr6 => cases h; exact stepDr6_runOk hl

end Sys2Proof.Machine
end

section
/-! The other parts of the invariant, and the whole of it, under every micro-step, event and acceptance (spec 10_state.md
R45). -/

namespace Sys2Proof.Machine

variable {l : Label} {s t u : State}

/-! ### The arbiter's part -/

theorem arbiterOk_congr (h : u.owner = s.owner ∧ u.dir = s.dir ∧ u.csho = s.csho ∧ u.cspi = s.cspi) :
    arbiterOk u = arbiterOk s := by
  obtain ⟨howner, hdir, hcsho, hcspi⟩ := h
  simp only [arbiterOk, howner, hdir, hcsho, hcspi]

theorem arbiterOk_none (h : s.owner = .none) : arbiterOk s = true ↔
    (s.dir = .input ∧ s.csho = .inactive) ∧ s.cspi = .inactive := by
  simp [arbiterOk, h]

theorem arbiterOk_hostOutput (h : s.owner = .hostOutput) : arbiterOk s = true ↔
    (s.dir = .output ∧ s.csho = .active) ∧ s.cspi = .inactive := by
  simp [arbiterOk, h]

theorem arbiterOk_peerInput (h : s.owner = .peerInput) : arbiterOk s = true ↔
    (s.dir = .input ∧ s.csho = .inactive) ∧ s.cspi = .active := by
  simp [arbiterOk, h]

theorem legalClaim_iff {o : Owner} {d : Dir} : legalClaim o d = true ↔
    (o = .hostOutput ∧ d = .output) ∨ (o = .peerInput ∧ d = .input) := by
  cases o <;> cases d <;> decide

theorem legalRelease_iff {o : Owner} : legalRelease o = true ↔ o = .hostOutput ∨ o = .peerInput := by
  cases o <;> decide

theorem claimBus_arbiterOk {o : Owner} {d : Dir} (hlegal : legalClaim o d = true) (hs : arbiterOk s = true)
    (h : claimBus o d s = .ok u) : arbiterOk u = true := by
  rw [claimBus_eq] at h
  split at h <;> cases h
  next hfree =>
    obtain ⟨⟨-, hcsho⟩, hcspi⟩ := (arbiterOk_none hfree).1 hs
    rcases legalClaim_iff.1 hlegal with ⟨rfl, rfl⟩ | ⟨rfl, rfl⟩
    · exact (arbiterOk_hostOutput rfl).2 ⟨⟨rfl, rfl⟩, hcspi⟩
    · exact (arbiterOk_peerInput rfl).2 ⟨⟨rfl, hcsho⟩, rfl⟩

theorem releaseBus_arbiterOk {o : Owner} (hlegal : legalRelease o = true) (hs : arbiterOk s = true)
    (h : releaseBus o s = .ok u) : arbiterOk u = true := by
  rw [releaseBus_eq] at h
  split at h <;> cases h
  next howner =>
    rcases legalRelease_iff.1 hlegal with rfl | rfl
    · obtain ⟨-, hcspi⟩ := (arbiterOk_hostOutput howner).1 hs
      exact (arbiterOk_none rfl).2 ⟨⟨rfl, rfl⟩, hcspi⟩
    · obtain ⟨⟨-, hcsho⟩, -⟩ := (arbiterOk_peerInput howner).1 hs
      exact (arbiterOk_none rfl).2 ⟨⟨rfl, hcsho⟩, rfl⟩

theorem afterCall_arbiterOk {r : Except Cause State} (hr : ∀ u, r = .ok u → arbiterOk u = true)
    (hs : arbiterOk s = true) : arbiterOk (afterCall r s) = true := by
  cases r with
  | ok u => exact hr u rfl
  | error c => exact hs

theorem completeOrRaise_arbiterOk {r : Except Cause State} (hr : ∀ u, r = .ok u → arbiterOk u = true)
    (hs : arbiterOk s = true) : arbiterOk (completeOrRaise r s) = true := by
  cases r with
  | ok u => exact hr u rfl
  | error c => exact hs

theorem claimThen_arbiterOk {o : Owner} {d : Dir} {next : Label} (hlegal : legalClaim o d = true)
    (hs : arbiterOk s = true) : arbiterOk (claimThen o d next s) = true := by
  unfold claimThen
  split
  · next u hu => exact claimBus_arbiterOk (u := u) hlegal hs hu
  · exact hs

/-- Every micro-step keeps the arbiter's part: only legal claims and releases write the bus. -/
theorem micro_arbiterOk (hl : labelOk l s = true) (hs : arbiterOk s = true) (h : micro l s = .next t) :
    arbiterOk t = true := by
  have hclaim (o : Owner) (d : Dir) (hlegal : legalClaim o d = true) (u : State) :
      claimBus o d s = .ok u → arbiterOk u = true := claimBus_arbiterOk hlegal hs
  have hrelease (o : Owner) (hlegal : legalRelease o = true) (u : State) :
      releaseBus o s = .ok u → arbiterOk u = true := releaseBus_arbiterOk hlegal hs
  by_cases hcall : callsArbiter l = true
  · cases l with
    | claim o d => cases h; exact completeOrRaise_arbiterOk (hclaim o d ((labelOk_claim o d s).1 hl).1) hs
    | release o => cases h; exact completeOrRaise_arbiterOk (hrelease o ((labelOk_release o s).1 hl).1) hs
    | sb7a b => cases h; exact afterCall_arbiterOk (hrelease .hostOutput rfl) hs
    | sb7b b => cases h; exact afterCall_arbiterOk (hclaim .peerInput .input rfl) hs
    | sb7d b v => cases h; exact afterCall_arbiterOk (hrelease .peerInput rfl) hs
    | sb7e b v => cases h; exact afterCall_arbiterOk (hclaim .hostOutput .output rfl) hs
    | dl2 n => cases h; exact claimThen_arbiterOk rfl hs
    | dl6 => cases h; exact afterCall_arbiterOk (hrelease .hostOutput rfl) hs
    | dr2 => cases h; exact claimThen_arbiterOk rfl hs
    | dr6 => cases h; exact afterCall_arbiterOk (hrelease .peerInput rfl) hs
    | _ => cases hcall
  · rw [arbiterOk_congr (micro_bus (Bool.eq_false_iff.2 hcall) h), hs]

/-! ### The record's and the payload's part -/

theorem micro_recordOk (hs : recordOk s = true) (h : micro l s = .next t) : recordOk t = true := by
  rw [recordOk_iff] at hs ⊢
  refine ⟨?_, micro_res h hs.2⟩
  rcases micro_errstat h with he | ⟨c, he⟩ <;> rw [he]
  · exact hs.1
  · rw [setErrBit_bit0, hs.1]

theorem payloadOk_congr (h : u.pay = s.pay ∧ u.plen = s.plen) : payloadOk u = payloadOk s := by
  simp only [payloadOk, h.1, h.2]

/-- The engine's turn keeps the invariant. -/
theorem engineTurn_invariant : ∀ s t, invariant s = true → engineTurn s = .next t → invariant t = true := by
  refine engineTurn_keeps (P := fun s => invariant s = true) fun l rest s t hrun hseq hs h => ?_
  obtain ⟨harb, hrunOk, hrec, hpay⟩ := invariant_iff.1 hs
  have hat : AtLabel l { s with seq := rest } := atLabel_of_runOk hrun hseq hrunOk
  exact invariant_iff.2 ⟨micro_arbiterOk hat.label harb h, micro_runOk hat h,
    micro_recordOk (s := { s with seq := rest }) hrec h, (payloadOk_congr (micro_pay h)).trans hpay⟩

/-! ### Events -/

/-- No part of the invariant reads what the peer moves. -/
theorem invariant_of_onlyPeerActed (h : OnlyPeerActed s t) : invariant t = invariant s := by
  rw [h.1]
  rfl

theorem runOk_handshakeIdle (hs : runOk s = true) (hrun : s.run ≠ .busy) : handshakeIdle s = true := by
  unfold runOk at hs
  split at hs
  · exact (Bool.and_eq_true_iff.1 hs).2
  · simp only [Bool.and_eq_true] at hs
    exact hs.1.2
  · next hbusy => exact absurd hbusy hrun

theorem cancelNow_invariant (hs : invariant s = true) : invariant (cancelNow s) = true := by
  obtain ⟨harb, -, hrec, hpay⟩ := invariant_iff.1 hs
  obtain ⟨tr, hcancel⟩ := exists_cancelNow_eq s
  rw [hcancel]
  refine invariant_iff.2 ⟨?_, rfl, ?_, hpay⟩
  · rw [arbiterOk_none rfl]
    cases howner : s.owner with
    | none => exact ⟨⟨rfl, ((arbiterOk_none howner).1 harb).1.2⟩, ((arbiterOk_none howner).1 harb).2⟩
    | hostOutput => exact ⟨⟨rfl, rfl⟩, ((arbiterOk_hostOutput howner).1 harb).2⟩
    | peerInput => exact ⟨⟨rfl, ((arbiterOk_peerInput howner).1 harb).1.2⟩, rfl⟩
  · exact recordOk_iff.2 ⟨(setErrBit_bit0 _ _).trans (recordOk_iff.1 hrec).1, resCode_eq_four_iff.not.2 (by decide)⟩

theorem cancel_invariant (hs : invariant s = true) : invariant (cancel s) = true := by
  unfold cancel
  split
  · exact hs
  · exact cancelNow_invariant (s := emit .cancelled s) hs

theorem resetEngine_invariant (hs : invariant s = true) : invariant (resetEngine s) = true := by
  obtain ⟨-, -, -, hpay⟩ := invariant_iff.1 hs
  have hrec : recordOk (resetEngine s) = recordOk State.reset := rfl
  exact invariant_iff.2 ⟨rfl, rfl, hrec.trans rfl, hpay⟩

/-- Outside a download no label reads the payload. -/
theorem labelOk_supplyPay (bs : List Byte) (hl : l.ofDownload = false) : labelOk l (supplyPay bs s) = labelOk l s := by
  cases l with
  | dl2 n => cases hl
  | dl3 n => cases hl
  | dl4 n => cases hl
  | dl5 n => cases hl
  | _ => rfl

theorem belowOk_supplyPay (bs : List Byte) {rest : List Label} (hrest : rest.any Label.ofDownload = false) :
    belowOk l rest (supplyPay bs s) = belowOk l rest s := by
  have hsend (first : Bool) : sendReturnOk first rest (supplyPay bs s) = sendReturnOk first rest s := by
    unfold sendReturnOk
    split
    · rfl
    · rfl
    · cases hrest
    · rfl
  simp only [belowOk, hsend]

/-- A payload supplied while no download is Busy leaves the engine where it stands (spec 20_memory.md R61). -/
theorem runOk_supplyPay (bs : List Byte) (hd : downloading s = false) : runOk (supplyPay bs s) = runOk s := by
  unfold runOk
  rw [supplyPay_run]
  split
  · rfl
  · rfl
  · next hrun =>
    have hany : s.seq.any Label.ofDownload = false := by simpa [downloading, hrun] using hd
    unfold seqOk
    rw [supplyPay_seq]
    split
    · rfl
    · next l rest hseq =>
      rw [hseq, List.any_cons, Bool.or_eq_false_iff] at hany
      have hbelow := belowOk_supplyPay (l := l) (s := s) bs hany.2
      unfold belowOk at hbelow
      rw [labelOk_supplyPay bs hany.1, hbelow]

theorem supplyPay_invariant (bs : List Byte) (hd : downloading s = false) (hs : invariant s = true) :
    invariant (supplyPay bs s) = true := by
  obtain ⟨harb, hrun, hrec, -⟩ := invariant_iff.1 hs
  exact invariant_iff.2 ⟨harb, (runOk_supplyPay bs hd).trans hrun, hrec, payloadOk_supplyPay bs s⟩

theorem supplyNow_invariant {bs : List Byte} (hs : invariant s = true) (h : supplyNow bs s = .next t) :
    invariant t = true := by
  obtain ⟨rfl, hsame⟩ := supplyNow_eq_next h
  cases hd : downloading s with
  | false => exact supplyPay_invariant bs hd hs
  | true =>
    obtain ⟨hpay, hplen⟩ := hsame hd
    have heq : supplyPay bs s = s := by
      rw [supplyPay_pay] at hpay
      rw [supplyPay_plen] at hplen
      rw [supplyPay, hpay, hplen]
    rw [heq, hs]

/-- Every event keeps the invariant. -/
theorem applyEvent_invariant (e : Event) (s t : State) (hs : invariant s = true) (h : applyEvent e s = .next t) :
    invariant t = true := by
  cases hpeer : e.ofPeer with
  | true => rw [invariant_of_onlyPeerActed (applyEvent_onlyPeerActed hpeer h), hs]
  | false =>
    cases e with
    | cancel => cases h; exact cancel_invariant hs
    | reset => cases h; exact resetEngine_invariant hs
    | supply bs => exact supplyNow_invariant hs h
    | hostReads => cases h; exact hs
    | _ => cases hpeer

theorem letEnvAct_invariant : ∀ s t, invariant s = true → letEnvAct s = .next t → invariant t = true :=
  letEnvAct_keeps (P := fun s => invariant s = true) applyEvent_invariant fun _ _ hs => hs

/-! ### Acceptance -/

theorem runOk_accept_cons {w : CmdWord} {rest : List Label} (hl : labelOk l s = true) (hrest : belowOk l rest s = true) :
    runOk (accept w (l :: rest) s) = true :=
  runOk_of_atLabel (s := accept w (l :: rest) s) rfl ⟨rfl, hl, hrest⟩

/-- Every command starts at a label whose conditions a resting engine meets. -/
theorem runOk_accept {w : CmdWord} {ls : List Label} (hls : IsStart ls) (hidle : handshakeIdle s = true) :
    runOk (accept w ls s) = true := by
  rcases hls with rfl | ⟨i, rfl⟩
  · exact runOk_accept_cons hidle rfl
  · cases i with
    | claim o d =>
      simp only [startLabels]
      split
      · next hlegal => exact runOk_accept_cons ((labelOk_claim o d s).2 ⟨hlegal, hidle⟩) rfl
      · exact runOk_accept_cons hidle rfl
    | release o =>
      simp only [startLabels]
      split
      · next hlegal => exact runOk_accept_cons ((labelOk_release o s).2 ⟨hlegal, hidle⟩) rfl
      · exact runOk_accept_cons hidle rfl
    | _ => exact runOk_accept_cons hidle rfl

theorem accept_invariant (s : State) (w : CmdWord) (ls : List Label) (hrun : s.run = .ready) (hls : IsStart ls)
    (hs : invariant s = true) : invariant (accept w ls s) = true := by
  obtain ⟨harb, hrunOk, hrec, hpay⟩ := invariant_iff.1 hs
  exact invariant_iff.2 ⟨harb, runOk_accept hls (runOk_handshakeIdle hrunOk (by simp [hrun])), hrec, hpay⟩

theorem invariant_keptByParts : KeptByParts fun s => invariant s = true where
  env := letEnvAct_invariant
  engine := engineTurn_invariant
  host _ _ hs := hs
  pay _ bs hrun hs := supplyPay_invariant bs (by simp [downloading, hrun]) hs
  drain _ _ hs := hs
  start := accept_invariant

theorem step_invariant (hs : invariant s = true) (h : step s = .next t) : invariant t = true :=
  step_keeps invariant_keptByParts hs h

theorem microStep_invariant (hs : invariant s = true) (h : microStep s = .next t) : invariant t = true := by
  obtain ⟨u, hu, hturn⟩ := andThen_eq_next.1 h
  exact engineTurn_invariant u t (letEnvAct_invariant s u hs hu) hturn

/-! ### The statements -/

/-- Settles O14: events, acceptance and micro-steps each keep the invariant, and a step is made of these. -/
theorem everyStepKeepsTheInvariant : Obligations.EveryStepKeepsTheInvariant := by
  rintro s t hs (h | h)
  · exact step_invariant hs h
  · exact microStep_invariant hs h

/-- Settles O11: each row of R47's table is read off the reset state. -/
theorem resetStateHasTheSpecsValues : Obligations.ResetStateHasTheSpecsValues :=
  ⟨⟨rfl, rfl, rfl, rfl, rfl⟩, ⟨rfl, rfl, rfl, rfl, rfl⟩, ⟨rfl, rfl, rfl, rfl, rfl⟩, ⟨rfl, rfl, rfl, rfl, rfl, rfl⟩,
    ⟨rfl, rfl, rfl⟩, rfl, rfl, rfl, rfl⟩

/-- Settles O13: part by part, the bus free, the engine at rest, nothing on record, no payload. -/
theorem invariantHoldsAtReset : Obligations.InvariantHoldsAtReset :=
  invariant_iff.2 ⟨rfl, rfl, rfl, payloadOk_reset⟩

end Sys2Proof.Machine
end

section
/-! The payload memory and the image (spec 20_memory.md R60, R61, R66, R67): what was written is read back, and a download
keeps the host from writing. -/

namespace Sys2Proof.Machine

/-! ### The payload memory -/

/-- A supplied payload holds each of its bytes at its own offset. -/
theorem Memory.byteAt_holding {bs : List Byte} (a : Nat) {i : Nat} (hi : i < bs.length) :
    (Memory.holding a bs).byteAt (a + i) = bs[i] := by
  induction bs generalizing a i with
  | nil => cases hi
  | cons b bs ih =>
    rw [Memory.byteAt_holding_cons]
    cases i with
    | zero => simp
    | succ i =>
      have hrest := ih (a + 1) (Nat.lt_of_succ_lt_succ hi)
      rw [if_neg (by omega), show a + (i + 1) = a + 1 + i by omega, hrest, List.getElem_cons_succ]

theorem readPay_of_lt {s : State} {i : Nat} (h : i < s.plen) : readPay s i = some (s.pay.byteAt i) := if_pos h

theorem readPay_of_ge {s : State} {i : Nat} (h : s.plen ≤ i) : readPay s i = none := if_neg (Nat.not_lt.2 h)

/-- Settles O40: below `PLEN` the supplied byte stands at its offset, and from `PLEN` on both sides are undefined. -/
theorem suppliedPayloadReadsBack : Obligations.SuppliedPayloadReadsBack := by
  intro bs s i
  by_cases hi : i < bs.length
  · have hbyte := Memory.byteAt_holding 0 hi
    rw [Nat.zero_add] at hbyte
    rw [readPay_of_lt (by simpa using hi), supplyPay_pay, hbyte, List.getElem?_eq_getElem hi]
  · rw [readPay_of_ge (by simpa using hi), List.getElem?_eq_none (Nat.not_lt.1 hi)]

/-- Settles O48: the supply is let through during a download only if it changes neither `PAY` nor `PLEN`. -/
theorem payloadMustStandDuringADownload : Obligations.PayloadMustStandDuringADownload := by
  intro s bs hbusy hchange
  have hsame : ((supplyPay bs s).pay == s.pay && (supplyPay bs s).plen == s.plen) = false := by
    rw [Bool.and_eq_false_iff, beq_eq_false_iff_ne, beq_eq_false_iff_ne]
    exact hchange
  rw [applyEvent, supplyNow, hbusy, hsame]
  rfl

/-! ### The image -/

/-- A Word is put together again from its two Bytes (spec 41_codec.md R126). -/
theorem decodeWord_encodeWord (w : Word) : decodeWord (encodeWord w).1 (encodeWord w).2 = w := by
  apply BitVec.eq_of_getLsbD_eq
  intro i hi
  simp only [decodeWord, encodeWord, BitVec.getLsbD_append, BitVec.getLsbD_extractLsb']
  by_cases hlow : i < 8
  · simp [hlow]
  · simp [hlow, show i - 8 < 8 by omega, show 8 + (i - 8) = i by omega]

theorem length_imageBytes (p : ImageParts) : p.bytes.length = p.payload.length + 6 := by
  simp [ImageParts.bytes]

theorem parseImage_bytes (p : ImageParts) : parseImage p.bytes = some p := by
  simp [parseImage, ImageParts.bytes, decodeWord_encodeWord]

/-- Settles O57: the layout parses to its parts, and its length is the payload's and six bytes more. -/
theorem imageLayoutIsReadBack : Obligations.ImageLayoutIsReadBack := by
  intro p
  refine ⟨parseImage_bytes p, ?_⟩
  rw [length_imageBytes]
  omega

end Sys2Proof.Machine
end

section
/-! No step leaves the payload or the frame (spec 20_memory.md R62, 43_download.md R175): what the invariant says at DL4
puts the index inside the frame, and nothing else faults. -/

namespace Sys2Proof.Machine

variable {l : Label} {s : State} {f : Fault}

/-- Every index of the frame has a byte (spec 43_download.md R175). -/
theorem exists_frameByte_eq_ok {k : Nat} (hk : k < s.plen + 7) : ∃ b, frameByte s.plen k s = .ok b := by
  unfold frameByte
  by_cases hhead : k < 5
  · interval_cases k <;> exact ⟨_, rfl⟩
  · rw [if_neg (by omega), if_neg (by omega), if_neg (by omega), if_neg (by omega), if_neg (by omega)]
    by_cases hpay : k < s.plen + 5
    · rw [if_pos hpay, readPay_of_lt (by omega)]
      exact ⟨_, rfl⟩
    · rw [if_neg hpay]
      by_cases hlast : k = s.plen + 5
      · exact ⟨_, if_pos hlast⟩
      · rw [if_neg hlast, if_pos (by omega)]
        exact ⟨_, rfl⟩

theorem stepDl4_no_fault {n : Nat} (h : labelOk (.dl4 n) s = true) : stepDl4 n s ≠ .fault f := by
  rw [labelOk_dl4] at h
  obtain ⟨⟨⟨⟨rfl, -⟩, hidx⟩, -⟩, -⟩ := h
  obtain ⟨b, hb⟩ := exists_frameByte_eq_ok hidx
  simp [stepDl4, hb]

/-- Of all micro-steps only DL4 could fault. -/
theorem micro_no_fault (h : labelOk l s = true) : micro l s ≠ .fault f := by
  cases l with
  | dl4 n => exact stepDl4_no_fault h
  | _ => intro hfault; cases hfault

theorem engineTurn_no_fault (s : State) (f : Fault) (hs : invariant s = true) : engineTurn s ≠ .fault f := by
  obtain ⟨-, hrunOk, -, -⟩ := invariant_iff.1 hs
  unfold engineTurn
  split
  · next l rest hrun hseq => exact micro_no_fault (atLabel_of_runOk hrun hseq hrunOk).label
  · exact nofun

theorem runCommand_no_fault {w : CmdWord} {ls : List Label} (hls : IsStart ls) (hs : invariant s = true) :
    runCommand w ls s ≠ .fault f := by
  unfold runCommand
  split
  · next hready =>
    exact runFor_no_fault (P := fun s => invariant s = true) letEnvAct_invariant engineTurn_invariant
      (fun s f _ => letEnvAct_no_fault s f) engineTurn_no_fault _ _ f (accept_invariant s w ls hready hls hs)
  · exact nofun

theorem acceptWord_no_fault {w : CmdWord} (hs : invariant s = true) : acceptWord w s ≠ .fault f := by
  unfold acceptWord
  split
  · next i _ =>
    rw [exec_eq]
    exact runCommand_no_fault (.inr ⟨i, rfl⟩)
      (beforeStart_keeps (P := fun s => invariant s = true) invariant_keptByParts.drain i hs)
  · exact runCommand_no_fault (.inl rfl) hs

theorem hostTurn_no_fault (hs : invariant s = true) : hostTurn s ≠ .fault f := by
  unfold hostTurn
  split
  · exact nofun
  · exact nofun
  · exact acceptWord_no_fault (invariant_keptByParts.host s _ hs)

theorem haltedTurn_no_fault : haltedTurn s ≠ .fault f := by
  unfold haltedTurn
  split
  · exact nofun
  · exact nofun
  · split <;> exact nofun

theorem turn_no_fault (hs : invariant s = true) : turn s ≠ .fault f := by
  unfold turn
  split
  · exact hostTurn_no_fault hs
  · exact engineTurn_no_fault s f hs
  · exact haltedTurn_no_fault

/-- Settles O15: events never fault, they keep the invariant, and under it no turn faults. -/
theorem noFaultUnderTheInvariant : Obligations.NoFaultUnderTheInvariant := by
  intro s f hs
  unfold step
  split
  · exact letEnvAct_no_fault s f
  · intro h
    rcases andThen_eq_fault.1 h with hev | ⟨u, hu, hturn⟩
    · exact letEnvAct_no_fault s f hev
    · exact turn_no_fault (letEnvAct_invariant s u hs hu) hturn

end Sys2Proof.Machine
end

section
/-! `INBUF` as a queue (spec 20_memory.md R63, R78): while no reset is to come, only TAKE takes bytes from it. -/

namespace Sys2Proof.Machine

variable {l : Label} {s t u : State}

/-- From `s` to `t` bytes were at most appended to `INBUF`, and no TAKE was called. -/
structure BufferGrows (s t : State) : Prop where
  inbuf : s.inbuf <+: t.inbuf
  take : .take ∈ t.seq → .take ∈ s.seq

theorem BufferGrows.of_eq (hinbuf : t.inbuf = s.inbuf) (hseq : t.seq = s.seq) : BufferGrows s t :=
  ⟨hinbuf ▸ List.prefix_rfl, fun h => hseq ▸ h⟩

theorem BufferGrows.refl (s : State) : BufferGrows s s := .of_eq rfl rfl

theorem BufferGrows.andGoto {ls : List Label} (h : BufferGrows s u) (hls : .take ∉ ls) : BufferGrows s (goto ls u) :=
  ⟨h.inbuf, fun hmem => h.take ((List.mem_append.1 hmem).resolve_left hls)⟩

theorem BufferGrows.andComplete (h : BufferGrows s u) : BufferGrows s (complete u) :=
  ⟨h.inbuf, fun hmem => absurd hmem List.not_mem_nil⟩

theorem BufferGrows.of_eq_goto {ls : List Label} (hinbuf : u.inbuf = s.inbuf) (hseq : u.seq = s.seq) (hls : .take ∉ ls) :
    BufferGrows s (goto ls u) := (BufferGrows.of_eq hinbuf hseq).andGoto hls

theorem BufferGrows.of_eq_complete (hinbuf : u.inbuf = s.inbuf) : BufferGrows s (complete u) :=
  ⟨hinbuf ▸ List.prefix_rfl, fun hmem => absurd hmem List.not_mem_nil⟩

theorem BufferGrows.raised (c : Cause) (s : State) : BufferGrows s (raiseError c s) :=
  ⟨List.prefix_rfl, fun hmem => absurd hmem List.not_mem_nil⟩

/-! ### The arbiter and the data sample -/

theorem claimBus_bufferGrows {o : Owner} {d : Dir} (h : claimBus o d s = .ok u) : BufferGrows s u := by
  rw [claimBus_eq] at h
  split at h <;> cases h
  exact .of_eq rfl rfl

theorem releaseBus_bufferGrows {o : Owner} (h : releaseBus o s = .ok u) : BufferGrows s u := by
  rw [releaseBus_eq] at h
  split at h <;> cases h
  exact .of_eq rfl rfl

theorem afterCall_bufferGrows {r : Except Cause State} (hr : ∀ {u}, r = .ok u → BufferGrows s u) :
    BufferGrows s (afterCall r s) := by
  cases r with
  | ok u => exact hr rfl
  | error c => exact .refl s

theorem completeOrRaise_bufferGrows {r : Except Cause State} (hr : ∀ {u}, r = .ok u → BufferGrows s u) :
    BufferGrows s (completeOrRaise r s) := by
  cases r with
  | ok u => exact (hr rfl).andComplete
  | error c => exact .raised c s

theorem claimThen_bufferGrows {o : Owner} {d : Dir} {next : Label} (hn : .take ∉ [next]) :
    BufferGrows s (claimThen o d next s) := by
  unfold claimThen
  split
  · next u hu => exact (claimBus_bufferGrows hu).andGoto hn
  · next c _ => exact .raised c s

theorem sampleData_bufferGrows (s : State) : BufferGrows s (sampleData s).2 := by
  rw [sampleData_state]
  exact .of_eq rfl rfl

/-! ### The steps with a test -/

theorem stratack_bufferGrows : BufferGrows s
    (if s.strat = .acknowledged then raiseError .precondition s else complete { s with strat := .acknowledged }) := by
  split
  · exact .raised _ s
  · exact .of_eq_complete rfl

theorem stepSb1_bufferGrows (b : Byte) : BufferGrows s (stepSb1 b s) := by
  unfold stepSb1
  split
  · exact .of_eq_goto rfl rfl (by simp)
  · exact .raised _ s

theorem stepSb5_bufferGrows (b : Byte) : BufferGrows s (stepSb5 b s) := by
  unfold stepSb5
  split
  · exact .of_eq_goto rfl rfl (by simp)
  · split <;> exact .of_eq_goto rfl rfl (by simp)

theorem stepSb7_bufferGrows (b : Byte) : BufferGrows s (stepSb7 b s) := by
  unfold stepSb7
  split <;> exact .of_eq_goto rfl rfl (by simp)

theorem stepSb7f_bufferGrows (b v : Byte) : BufferGrows s (stepSb7f b v s) := by
  unfold stepSb7f
  split <;> exact .of_eq_goto rfl rfl (by simp)

theorem stepRecv_bufferGrows : BufferGrows s (stepRecv s) := by
  unfold stepRecv
  split
  · exact .raised _ s
  · split
    · exact .raised _ s
    · exact .of_eq_goto rfl rfl (by simp)

/-- RB2 is the one micro-step that appends (spec 42_handshake.md R152). -/
theorem stepRb2_bufferGrows : BufferGrows s (stepRb2 s) := by
  obtain ⟨hinbuf, htake⟩ := sampleData_bufferGrows s
  exact BufferGrows.andGoto ⟨hinbuf.trans (List.prefix_append _ _), htake⟩ (by simp)

theorem stepDl1_bufferGrows : BufferGrows s (stepDl1 s) := by
  unfold stepDl1
  split
  · exact .raised _ s
  · exact .of_eq_goto rfl rfl (by simp)

theorem stepDi1_bufferGrows : BufferGrows s (stepDi1 s) := by
  unfold stepDi1
  split
  · exact .raised _ s
  · split
    · exact .raised _ s
    · exact .of_eq_goto rfl rfl (by simp)

theorem stepDl5_bufferGrows (n : Nat) : BufferGrows s (stepDl5 n s) :=
  .of_eq_goto rfl rfl (by split <;> simp)

theorem stepDr1_bufferGrows : BufferGrows s (stepDr1 s) := by
  unfold stepDr1
  split
  · exact .of_eq_complete rfl
  · exact .of_eq_goto rfl rfl (by simp)

theorem stepDr5_bufferGrows : BufferGrows s (stepDr5 s) :=
  .of_eq_goto rfl rfl (by split <;> simp)

/-! ### Every micro-step, every event -/

/-- Every micro-step but TAKE's leaves `INBUF` or appends to it. -/
theorem micro_bufferGrows (hl : l ≠ .take) (h : micro l s = .next t) : BufferGrows s t := by
  cases l with
  | take => exact absurd rfl hl
  | illegal => cases h; exact .raised _ s
  | claim o d => cases h; exact completeOrRaise_bufferGrows claimBus_bufferGrows
  | release o => cases h; exact completeOrRaise_bufferGrows releaseBus_bufferGrows
  | stratack => cases h; exact stratack_bufferGrows
  | setrb v => cases h; exact .of_eq_complete rfl
  | setload x => cases h; exact .of_eq_complete rfl
  | setexec x => cases h; exact .of_eq_complete rfl
  | setlen x => cases h; exact .of_eq_complete rfl
  | complete => cases h; exact .of_eq_complete rfl
  | sb1 b => cases h; exact stepSb1_bufferGrows b
  | sb5 b => cases h; exact stepSb5_bufferGrows b
  | sb7 b => cases h; exact stepSb7_bufferGrows b
  | sb7a b => cases h; exact (afterCall_bufferGrows releaseBus_bufferGrows).andGoto (by simp)
  | sb7b b => cases h; exact (afterCall_bufferGrows claimBus_bufferGrows).andGoto (by simp)
  | sb7c b => cases h; exact (sampleData_bufferGrows s).andGoto (by simp)
  | sb7d b v => cases h; exact (afterCall_bufferGrows releaseBus_bufferGrows).andGoto (by simp)
  | sb7e b v => cases h; exact (afterCall_bufferGrows claimBus_bufferGrows).andGoto (by simp)
  | sb7f b v => cases h; exact stepSb7f_bufferGrows b v
  | sb8 => cases h; exact .refl s
  | recv => cases h; exact stepRecv_bufferGrows
  | rb2 => cases h; exact stepRb2_bufferGrows
  | rb6 => cases h; exact .of_eq rfl rfl
  | dl1 => cases h; exact stepDl1_bufferGrows
  | di1 => cases h; exact stepDi1_bufferGrows
  | dl2 n => cases h; exact claimThen_bufferGrows (by simp)
  | dl4 n => obtain ⟨b, rfl⟩ := stepDl4_eq_next h; exact .of_eq_goto rfl rfl (by simp)
  | dl5 n => cases h; exact stepDl5_bufferGrows n
  | dl6 => cases h; exact (afterCall_bufferGrows releaseBus_bufferGrows).andGoto (by simp)
  | dl7 => cases h; exact .of_eq_complete rfl
  | dr1 => cases h; exact stepDr1_bufferGrows
  | dr2 => cases h; exact claimThen_bufferGrows (by simp)
  | dr5 => cases h; exact stepDr5_bufferGrows
  | dr6 => cases h; exact (afterCall_bufferGrows releaseBus_bufferGrows).andComplete
  | _ => cases h; exact .of_eq_goto rfl rfl (by simp)

theorem cancel_inbuf (s : State) : (cancel s).inbuf = s.inbuf := by
  unfold cancel
  split
  · rfl
  · obtain ⟨tr, h⟩ := exists_cancelNow_eq (emit .cancelled s)
    rw [h]
    rfl

/-- No event but reset writes `INBUF`. -/
theorem applyEvent_inbuf {e : Event} (he : e ≠ .reset) (h : applyEvent e s = .next t) : t.inbuf = s.inbuf := by
  cases e with
  | otkn v => cases h; unfold driveOtkn; split <;> rfl
  | irdy v => cases h; unfold driveIrdy; split <;> rfl
  | pdata b => cases h; rfl
  | cancel => cases h; exact cancel_inbuf s
  | reset => exact absurd rfl he
  | supply bs => obtain ⟨rfl, -⟩ := supplyNow_eq_next h; rfl
  | hostReads => cases h; rfl
  | heartbeat => cases h; rfl

/-! ### A whole command -/

/-- `INBUF` starts with `bs`, and neither a TAKE nor a reset is to come. -/
def BufferStartsWith (bs : List Byte) (s : State) : Prop :=
  noReset s = true ∧ .take ∉ s.seq ∧ bs <+: s.inbuf

theorem bufferStartsWith_letEnvAct {bs : List Byte} (s t : State) (hs : BufferStartsWith bs s)
    (h : letEnvAct s = .next t) : BufferStartsWith bs t := by
  refine letEnvAct_keeps_of_noReset (P := fun s => .take ∉ s.seq ∧ bs <+: s.inbuf) ?_ (fun _ _ hu => hu) hs.1 hs.2 h
  rintro e u w he ⟨hmem, hpre⟩ huw
  refine ⟨?_, by rwa [applyEvent_inbuf he huw]⟩
  rcases (applyEvent_frame he huw).seq with hseq | hseq <;> rw [hseq]
  · exact hmem
  · exact List.not_mem_nil

theorem bufferStartsWith_engineTurn {bs : List Byte} :
    ∀ s t, BufferStartsWith bs s → engineTurn s = .next t → BufferStartsWith bs t := by
  refine engineTurn_keeps fun l rest s t _ hseq hs h => ?_
  obtain ⟨hno, hmem, hpre⟩ := hs
  rw [hseq, List.mem_cons, not_or] at hmem
  obtain ⟨hinbuf, htake⟩ := micro_bufferGrows (Ne.symm hmem.1) h
  exact ⟨noReset_of_env_eq (micro_env h) hno, hmem.2 ∘ htake, hpre.trans hinbuf⟩

theorem take_not_mem_startLabels {i : Instr} (hi : i ≠ .take) : .take ∉ startLabels i := by
  cases i with
  | take => exact absurd rfl hi
  | claim o d => simp only [startLabels]; split <;> simp
  | release o => simp only [startLabels]; split <;> simp
  | _ => simp [startLabels]

@[simp] theorem beforeStart_inbuf (i : Instr) (s : State) : (beforeStart i s).inbuf = s.inbuf := by cases i <;> rfl

/-- Settles O38: no event but reset writes `INBUF`, and every micro-step but TAKE's leaves it or appends. -/
theorem bufferOnlyGrowsAtItsEnd : Obligations.BufferOnlyGrowsAtItsEnd := by
  intro i s t hi hno h
  have hstart : BufferStartsWith s.inbuf (accept (encode i) (startLabels i) (beforeStart i s)) :=
    ⟨noReset_of_env_eq (beforeStart_env i s) hno, take_not_mem_startLabels hi, by simp⟩
  obtain ⟨-, -, bs, hbs⟩ := exec_keeps bufferStartsWith_letEnvAct bufferStartsWith_engineTurn (fun _ => hstart) h
  exact ⟨bs, hbs.symm⟩

end Sys2Proof.Machine
end

section
/-! The decoder and the encoder (spec 30_encoding.md R82 to R93): a word decodes to a command exactly when the command has a
legal word and this is it. -/

namespace Sys2Proof

variable {w mask pattern : CmdWord} {i j : Instr}

/-! ### One row of the opcode map -/

theorem ifShape_of_shape (h : w &&& mask = pattern) : ifShape w mask pattern i = .ok i := by
  simp [ifShape, hasShape, h]

theorem ifShape_eq_ok (h : ifShape w mask pattern j = .ok i) : w &&& mask = pattern ∧ j = i := by
  unfold ifShape at h
  split at h
  · next hshape => cases h; exact ⟨eq_of_beq hshape, rfl⟩
  · cases h

/-- A mask that leaves the low `n` bits free fixes the others: the word is those, then its own low bits. -/
theorem append_low_of_shape {m n : Nat} {x : BitVec (m + n)} {hi : BitVec m}
    (h : x &&& (BitVec.allOnes m ++ 0#n) = hi ++ 0#n) : hi ++ x.extractLsb' 0 n = x := by
  apply BitVec.eq_of_getLsbD_eq
  intro k hk
  have hbit := congrArg (·.getLsbD k) h
  simp only [BitVec.getLsbD_and, BitVec.getLsbD_append] at hbit
  rw [BitVec.getLsbD_append]
  by_cases hlow : k < n
  · simp [hlow]
  · have hhigh : k - n < m := by omega
    simpa [hlow, hhigh] using hbit.symm

/-- CLAIM's mask leaves `OWN` and `DIRF` free (R83, R87). -/
theorem formatA_of_shape {op : BitVec 4} (h : w &&& 0xF1FFFFFF#32 = op ++ 0#28) :
    formatA op (ownField w) (dirField w) = w := by
  apply BitVec.eq_of_getLsbD_eq
  intro k hk
  have hbit := congrArg (·.getLsbD k) h
  simp only [BitVec.getLsbD_and, BitVec.getLsbD_append] at hbit
  simp only [formatA, ownField, dirField, BitVec.getLsbD_extractLsb', BitVec.getLsbD_append]
  interval_cases k <;> simp_all

/-- RELEASE's mask leaves `OWN` free and holds `DIRF` at zero (R83, R87). -/
theorem formatA_of_shape_release (h : w &&& 0xF3FFFFFF#32 = 0x20000000#32) : formatA 0x2#4 (ownField w) 0#1 = w := by
  have hclaim : w &&& 0xF1FFFFFF#32 = 0x2#4 ++ 0#28 :=
    calc w &&& 0xF1FFFFFF#32 = (w &&& 0xF3FFFFFF#32) &&& 0xF1FFFFFF#32 := by rw [BitVec.and_assoc]; rfl
      _ = 0x2#4 ++ 0#28 := by rw [h]; rfl
  have hdir : dirField w = 0#1 :=
    calc dirField w = dirField w &&& dirField 0xF3FFFFFF#32 := BitVec.and_allOnes.symm
      _ = dirField (w &&& 0xF3FFFFFF#32) := BitVec.extractLsb'_and.symm
      _ = 0#1 := by rw [h]; rfl
  rw [← hdir]
  exact formatA_of_shape hclaim

theorem formatW_of_shape (op : BitVec 4) (h : w &&& 0xFFFF0000#32 = op ++ 0#12 ++ 0#16) :
    formatW op (imm16Field w) = w := append_low_of_shape h

theorem formatB_of_shape (op : BitVec 4) (h : w &&& 0xFFFFFF00#32 = op ++ 0#20 ++ 0#8) :
    formatB op (imm8Field w) = w := append_low_of_shape h

theorem ofBool_imm1Field (w : CmdWord) : BitVec.ofBool (imm1Field w) = w.extractLsb' 0 1 := by
  apply BitVec.eq_of_getLsbD_eq
  intro k hk
  obtain rfl : k = 0 := by omega
  simp [imm1Field]

theorem formatB1_of_shape (op : BitVec 4) (h : w &&& 0xFFFFFFFE#32 = op ++ 0#27 ++ 0#1) :
    formatB1 op (imm1Field w) = w := by
  rw [formatB1, ofBool_imm1Field]
  exact append_low_of_shape h

/-- A mask of ones leaves nothing free. -/
theorem eq_of_shape (h : w &&& 0xFFFFFFFF#32 = pattern) : pattern = w :=
  h.symm.trans BitVec.and_allOnes

/-! ### Owners and directions -/

theorem ownerOfField_eq_some {f : BitVec 2} {o : Owner} (h : ownerOfField f = some o) :
    o.code = f ∧ legalRelease o = true := by
  unfold ownerOfField at h
  split at h
  · next hf => cases h; exact ⟨hf.symm, rfl⟩
  · split at h
    · next hf => cases h; exact ⟨hf.symm, rfl⟩
    · cases h

theorem code_dirOfField (f : BitVec 1) : (dirOfField f).code = f := by
  revert f
  decide

/-! ### The decoder reads what the encoder wrote -/

/-- Every well-formed command is read back from its word. -/
theorem decode_encode (hi : i.wellFormed = true) : decode (encode i) = .ok i := by
  cases i with
  | claim o d => rcases Machine.legalClaim_iff.1 hi with ⟨rfl, rfl⟩ | ⟨rfl, rfl⟩ <;> rfl
  | release o => rcases Machine.legalRelease_iff.1 hi with rfl | rfl <;> rfl
  | sendb b =>
    simp only [encode, decode, opField_formatB, imm8Field_formatB]
    exact ifShape_of_shape (Laws.WordShape.sendb b)
  | sendw x =>
    simp only [encode, decode, opField_formatW, imm16Field_formatW]
    exact ifShape_of_shape (Laws.WordShape.sendw x)
  | recvb => rfl
  | drain => rfl
  | stratack => rfl
  | setload x =>
    simp only [encode, decode, opField_formatW, imm16Field_formatW]
    exact ifShape_of_shape (Laws.WordShape.setload x)
  | setexec x =>
    simp only [encode, decode, opField_formatW, imm16Field_formatW]
    exact ifShape_of_shape (Laws.WordShape.setexec x)
  | setlen x =>
    simp only [encode, decode, opField_formatW, imm16Field_formatW]
    exact ifShape_of_shape (Laws.WordShape.setlen x)
  | dload => rfl
  | dloadi => rfl
  | setrb v => cases v <;> rfl
  | take => rfl

/-- Settles O1: the decoder finds the row by `OP`, the shape holds, and the fields carry the operands. -/
theorem decodeReadsBackEveryCommand : Obligations.DecodeReadsBackEveryCommand := fun _ => decode_encode

/-! ### What the decoder reads is a command's word -/

theorem decodeClaim_eq_ok (h : decodeClaim w = .ok i) : i.wellFormed = true ∧ encode i = w := by
  unfold decodeClaim at h
  split at h
  · next hshape =>
    split at h
    · cases h
    · next o ho =>
      split at h
      · next hlegal =>
        cases h
        refine ⟨hlegal, ?_⟩
        rw [encode, (ownerOfField_eq_some ho).1, code_dirOfField]
        exact formatA_of_shape (eq_of_beq hshape)
      · cases h
  · cases h

theorem decodeRelease_eq_ok (h : decodeRelease w = .ok i) : i.wellFormed = true ∧ encode i = w := by
  unfold decodeRelease at h
  split at h
  · next hshape =>
    split at h
    · cases h
    · next o ho =>
      cases h
      obtain ⟨hcode, hlegal⟩ := ownerOfField_eq_some ho
      refine ⟨hlegal, ?_⟩
      rw [encode, hcode]
      exact formatA_of_shape_release (eq_of_beq hshape)
  · cases h

theorem ifShape_encode (h : ifShape w mask pattern j = .ok i) (hj : j.wellFormed = true)
    (hword : w &&& mask = pattern → encode j = w) : i.wellFormed = true ∧ encode i = w := by
  obtain ⟨hshape, rfl⟩ := ifShape_eq_ok h
  exact ⟨hj, hword hshape⟩

/-- A word that decodes is the word of a well-formed command, the one it decodes to. -/
theorem decode_eq_ok (h : decode w = .ok i) : i.wellFormed = true ∧ encode i = w := by
  unfold decode at h
  split at h
  · exact decodeClaim_eq_ok h
  · exact decodeRelease_eq_ok h
  · exact ifShape_encode h rfl (formatB_of_shape 0x3#4)
  · exact ifShape_encode h rfl (formatW_of_shape 0x4#4)
  · exact ifShape_encode h rfl eq_of_shape
  · exact ifShape_encode h rfl eq_of_shape
  · exact ifShape_encode h rfl eq_of_shape
  · exact ifShape_encode h rfl (formatW_of_shape 0x8#4)
  · exact ifShape_encode h rfl (formatW_of_shape 0x9#4)
  · exact ifShape_encode h rfl (formatW_of_shape 0xA#4)
  · exact ifShape_encode h rfl eq_of_shape
  · exact ifShape_encode h rfl eq_of_shape
  · exact ifShape_encode h rfl (formatB1_of_shape 0xD#4)
  · exact ifShape_encode h rfl eq_of_shape
  · cases h

theorem decode_eq_ok_iff : decode w = .ok i ↔ i.wellFormed = true ∧ encode i = w :=
  ⟨decode_eq_ok, fun ⟨hi, hw⟩ => hw ▸ decode_encode hi⟩

/-! ### The words as numbers -/

theorem toNat_append_zero_append {m z n : Nat} (op : BitVec m) (x : BitVec n) :
    (op ++ 0#z ++ x).toNat = op.toNat <<< z <<< n + x.toNat := by
  rw [BitVec.toNat_append, ← Nat.shiftLeft_add_eq_or_of_lt x.isLt, BitVec.toNat_append, BitVec.toNat_zero, Nat.or_zero]

/-- A legal command and its word as a number. -/
theorem legalWord_iff {n : Nat} (hi : i.wellFormed = true) (hn : (encode i).toNat = n) :
    decode w = .ok i ↔ w.toNat = n := by
  rw [decode_eq_ok_iff, ← hn, eq_comm (a := w.toNat), BitVec.toNat_inj]
  exact and_iff_right hi

theorem not_decode_of_not_wellFormed (hi : i.wellFormed = false) : decode w = .ok i ↔ False := by
  simp [decode_eq_ok_iff, hi]

/-- Settles O2: each row of the list is the word of a well-formed command as a number, and an ill-formed one has none. -/
theorem legalWordsAndTheirCommands : Obligations.LegalWordsAndTheirCommands := by
  intro w i
  cases i with
  | claim o d =>
    cases o <;> cases d
    case hostOutput.output => exact legalWord_iff rfl rfl
    case peerInput.input => exact legalWord_iff rfl rfl
    all_goals exact not_decode_of_not_wellFormed rfl
  | release o =>
    cases o
    case none => exact not_decode_of_not_wellFormed rfl
    all_goals exact legalWord_iff rfl rfl
  | sendb b => exact legalWord_iff rfl (toNat_append_zero_append 0x3#4 b)
  | sendw x => exact legalWord_iff rfl (toNat_append_zero_append 0x4#4 x)
  | recvb => exact legalWord_iff rfl rfl
  | drain => exact legalWord_iff rfl rfl
  | stratack => exact legalWord_iff rfl rfl
  | setload x => exact legalWord_iff rfl (toNat_append_zero_append 0x8#4 x)
  | setexec x => exact legalWord_iff rfl (toNat_append_zero_append 0x9#4 x)
  | setlen x => exact legalWord_iff rfl (toNat_append_zero_append 0xA#4 x)
  | dload => exact legalWord_iff rfl rfl
  | dloadi => exact legalWord_iff rfl rfl
  | setrb v => cases v <;> exact legalWord_iff rfl rfl
  | take => exact legalWord_iff rfl rfl

end Sys2Proof
end

section
/-! How a command comes to run (spec 30_encoding.md R80, R81): the word at the head of the host's stream, in `Ready` alone. -/

namespace Sys2Proof.Machine

variable {s : State} {w : CmdWord} {i : Instr}

theorem turn_of_ready (h : s.run = .ready) : turn s = hostTurn s := by
  simp [turn, h]

theorem hostTurn_of_command {rest : List HostAct} (h : s.host = .command w :: rest) :
    hostTurn s = acceptWord w { s with host := rest } := by
  simp [hostTurn, h]

theorem acceptWord_of_decode (h : decode w = .ok i) : acceptWord w s = exec i s := by
  simp [acceptWord, h]

/-- Settles O5: after the due events it is the host's turn, and its next act is the word. -/
theorem stepRunsTheDecodedCommand : Obligations.StepRunsTheDecodedCommand := by
  intro s s1 w rest i hlook henv hready hhost hdecode
  calc step s = turn s1 := step_of_letEnvAct hlook henv
    _ = hostTurn s1 := turn_of_ready hready
    _ = acceptWord w { s1 with host := rest } := hostTurn_of_command hhost
    _ = exec i { s1 with host := rest } := acceptWord_of_decode hdecode

theorem hostLooks_presentNext (w : CmdWord) (s : State) : hostLooks (presentNext w s) = false := rfl

theorem letEnvAct_presentNext (w : CmdWord) (s : State) :
    letEnvAct (presentNext w s) = .next { s with host := .command w :: s.host } := rfl

theorem withFetchWord_toNat (w : CmdWord) (s : State) : s.withFetchWord 32 w.toNat = presentNext w s := by
  rw [State.withFetchWord, Nat.mod_eq_of_lt w.isLt, BitVec.ofNat_toNat, BitVec.setWidth_eq]

/-- Settles O7: nothing is due before the placed word, so the step is that of O5. -/
theorem placedWordIsExecutedNext : Obligations.PlacedWordIsExecutedNext := by
  intro s w i hready hdecode
  rw [withFetchWord_toNat]
  exact stepRunsTheDecodedCommand (presentNext w s) { s with host := .command w :: s.host } w s.host i
    (hostLooks_presentNext w s) (letEnvAct_presentNext w s) hready rfl hdecode

theorem runCommand_of_not_ready {ls : List Label} (h : s.run ≠ .ready) :
    runCommand w ls s = .refused .commandNotEnabled := if_neg h

@[simp] theorem beforeStart_run (i : Instr) (s : State) : (beforeStart i s).run = s.run := by cases i <;> rfl

/-- Settles O8: every command is run by `runCommand`, which accepts in `Ready` alone. -/
theorem noCommandOutsideReady : Obligations.NoCommandOutsideReady := by
  intro i s hrun
  rw [exec_eq]
  exact runCommand_of_not_ready (by rwa [beforeStart_run])

end Sys2Proof.Machine
end

section
/-! No command is cut short (log 3): how many micro-steps a command has left is bounded, every micro-step takes one off the
bound unless it waits for the peer, and `exec` has turns for all of them. -/

namespace Sys2Proof.Machine

variable {l : Label} {s t u : State} {m n : Nat}

/-! ### The turns left -/

/-- The label is a step of a transfer, `SendByte` or `ReceiveByte`, which returns to a label below it. -/
def Label.ofTransfer (l : Label) : Bool := l.ofSend || l.ofReceive

/-- At most how many micro-steps the rule at a label still takes before it returns to the labels below it, with `PLEN` and
`IDX` as given; a wait at SB5 and a further turn of DRAIN's loop are not counted. -/
def Label.turns (plen idx : Nat) : Label → Nat
  | .sb1 _ => 14
  | .sb2 _ => 13
  | .sb3 _ => 12
  | .sb4 _ => 11
  | .sb5 _ => 10
  | .sb6 _ => 9
  | .sb7 _ => 8
  | .sb7a _ => 7
  | .sb7b _ => 6
  | .sb7c _ => 5
  | .sb7d _ _ => 4
  | .sb7e _ _ => 3
  | .sb7f _ _ => 2
  | .recv => 8
  | .rb1 => 6
  | .rb2 => 5
  | .rb3 => 4
  | .rb4 => 3
  | .rb5 => 2
  | .dl1 => 16 * (plen + 7) + 5
  | .di1 => 16 * (plen + 7) + 5
  | .dl2 n => 16 * (n + 7) + 4
  | .dl3 n => 16 * (n + 7) + 3
  | .dl4 n => 16 * (n + 7 - idx) + 2
  | .dl5 n => 16 * (n + 6 - idx) + 3
  | .dl6 => 2
  | .dr1 => 12
  | .dr2 => 11
  | .dr3 => 10
  | .dr4 => 3
  | .dr5 => 2
  | _ => 1

/-- The turns of several labels, one returning to the next. -/
def turnsOf (plen idx : Nat) (ls : List Label) : Nat := (ls.map (Label.turns plen idx)).sum

@[simp] theorem turnsOf_nil (plen idx : Nat) : turnsOf plen idx [] = 0 := rfl

@[simp] theorem turnsOf_cons (plen idx : Nat) (l : Label) (ls : List Label) :
    turnsOf plen idx (l :: ls) = l.turns plen idx + turnsOf plen idx ls := by simp [turnsOf]

@[simp] theorem turnsOf_append (plen idx : Nat) (ls ls' : List Label) :
    turnsOf plen idx (ls ++ ls') = turnsOf plen idx ls + turnsOf plen idx ls' := by simp [turnsOf]

@[simp] theorem Label.turns_sb1 (plen idx : Nat) (b : Byte) : (Label.sb1 b).turns plen idx = 14 := rfl
@[simp] theorem Label.turns_dl1 (plen idx : Nat) : Label.dl1.turns plen idx = 16 * (plen + 7) + 5 := rfl
@[simp] theorem Label.turns_di1 (plen idx : Nat) : Label.di1.turns plen idx = 16 * (plen + 7) + 5 := rfl
@[simp] theorem Label.turns_dl2 (plen idx n : Nat) : (Label.dl2 n).turns plen idx = 16 * (n + 7) + 4 := rfl
@[simp] theorem Label.turns_dl3 (plen idx n : Nat) : (Label.dl3 n).turns plen idx = 16 * (n + 7) + 3 := rfl
@[simp] theorem Label.turns_dl4 (plen idx n : Nat) : (Label.dl4 n).turns plen idx = 16 * (n + 7 - idx) + 2 := rfl
@[simp] theorem Label.turns_dl5 (plen idx n : Nat) : (Label.dl5 n).turns plen idx = 16 * (n + 6 - idx) + 3 := rfl
@[simp] theorem Label.turns_dl6 (plen idx : Nat) : Label.dl6.turns plen idx = 2 := rfl

theorem Label.turns_pos (plen idx : Nat) (l : Label) : 0 < l.turns plen idx := by
  cases l <;> exact Nat.succ_pos _

/-- What a download's label says of the length it carries and of `IDX`, which keeps `IDX` from wrapping. -/
def indexOk (l : Label) (s : State) : Prop :=
  match l with
  | .dl2 n => n ≤ 65535
  | .dl3 n => n ≤ 65535
  | .dl4 n => n ≤ 65535 ∧ s.idx.toNat < n + 7
  | .dl5 n => n ≤ 65535 ∧ s.idx.toNat < n + 7
  | _ => True

/-- A command is in progress with at most `n` turns left: steps of transfers stand above one label of the command's own. -/
structure TurnsLeft (n : Nat) (s : State) : Prop where
  run : s.run = .busy
  seq : ∃ ts l, s.seq = ts ++ [l] ∧ (∀ x ∈ ts, x.ofTransfer = true) ∧ l.ofTransfer = false ∧ indexOk l s
  turns : turnsOf s.plen s.idx.toNat s.seq ≤ n

theorem TurnsLeft.mono (h : TurnsLeft m s) (hmn : m ≤ n) : TurnsLeft n s := ⟨h.run, h.seq, h.turns.trans hmn⟩

theorem TurnsLeft.pos (h : TurnsLeft n s) : 0 < n := by
  obtain ⟨-, ⟨ts, l, hseq, -, -, -⟩, hturns⟩ := h
  have := l.turns_pos s.plen s.idx.toNat
  rw [hseq] at hturns
  simp only [turnsOf_append, turnsOf_cons, turnsOf_nil] at hturns
  omega

/-! ### What the command awaits -/

/-- The micro-step at this label only waits, or loops, for as long as the peer does nothing (42_handshake.md R140;
44_inbound_reader.md R194). -/
def awaitsPeer (l : Label) (s : State) : Prop :=
  match l with
  | .sb5 _ => s.strat = .acknowledged ∧ s.ackEdge = false
  | .dr5 => s.irdy = .active
  | _ => False

/-- The engine stands at a label at which it awaits the peer. -/
def Awaits (s : State) : Prop := ∃ l rest, s.seq = l :: rest ∧ awaitsPeer l s

/-- With nothing to come, a command in progress is left to the environment exactly when it awaits the peer. -/
theorem TurnsLeft.leftToEnv_iff (h : TurnsLeft n s) : leftToEnv s = true ↔ s.env = [] ∧ Awaits s := by
  obtain ⟨-, ⟨ts, own, hseq, -⟩, -⟩ := h
  obtain ⟨l, rest, hcons⟩ := List.exists_cons_of_ne_nil (l := s.seq) (by simp [hseq])
  have hawaits : Awaits s ↔ awaitsPeer l s := by simp [Awaits, hcons]
  rw [hawaits, leftToEnv, hcons]
  cases l <;> simp [awaitsPeer]

/-! ### The steps of a transfer -/

/-- What a transfer leaves alone: the run state, the labels below, `IDX` and `PLEN`. -/
def courseFrame (s : State) := (s.run, s.seq, s.idx, s.plen)

/-- The three ways a step of a transfer can end. -/
inductive TransferOutcome (l : Label) (s : State) : State → Prop where
  | raised (c : Cause) : TransferOutcome l s (raiseError c s)
  | wentOn {u : State} {ls : List Label} (hu : courseFrame u = courseFrame s) (hls : ∀ x ∈ ls, x.ofTransfer = true)
      (hturns : ∀ plen idx, turnsOf plen idx ls < l.turns plen idx) : TransferOutcome l s (goto ls u)
  | waited (hawaits : awaitsPeer l s) : TransferOutcome l s (goto [l] s)

theorem TransferOutcome.next {l' : Label} (hu : courseFrame u = courseFrame s) (hl' : l'.ofTransfer = true := by rfl)
    (hturns : ∀ plen idx, l'.turns plen idx < l.turns plen idx := by exact fun _ _ => Nat.le_of_ble_eq_true rfl) :
    TransferOutcome l s (goto [l'] u) :=
  .wentOn hu (by simpa using hl') (by simpa using hturns)

/-- A return leaves the labels below. -/
theorem TransferOutcome.returned (hu : courseFrame u = courseFrame s) : TransferOutcome l s u :=
  TransferOutcome.wentOn (ls := []) hu nofun fun plen idx => l.turns_pos plen idx

theorem claimBus_courseFrame {o : Owner} {d : Dir} (h : claimBus o d s = .ok u) : courseFrame u = courseFrame s := by
  rw [claimBus_eq] at h
  split at h <;> cases h
  rfl

theorem releaseBus_courseFrame {o : Owner} (h : releaseBus o s = .ok u) : courseFrame u = courseFrame s := by
  rw [releaseBus_eq] at h
  split at h <;> cases h
  rfl

theorem afterCall_courseFrame {r : Except Cause State} (hr : ∀ u, r = .ok u → courseFrame u = courseFrame s) :
    courseFrame (afterCall r s) = courseFrame s := by
  cases r with
  | ok u => exact hr u rfl
  | error c => rfl

theorem afterClaim_courseFrame (o : Owner) (d : Dir) : courseFrame (afterCall (claimBus o d s) s) = courseFrame s :=
  afterCall_courseFrame fun _ => claimBus_courseFrame

theorem afterRelease_courseFrame (o : Owner) : courseFrame (afterCall (releaseBus o s) s) = courseFrame s :=
  afterCall_courseFrame fun _ => releaseBus_courseFrame

theorem sampleData_courseFrame (s : State) : courseFrame (sampleData s).2 = courseFrame s := by
  rw [sampleData_state]
  rfl

theorem stepSb1_transfer (b : Byte) : TransferOutcome (.sb1 b) s (stepSb1 b s) := by
  unfold stepSb1
  split
  · exact .next rfl
  · exact .raised _

/-- SB5 goes on, or waits for the edge (spec 42_handshake.md R140). -/
theorem stepSb5_transfer (b : Byte) : TransferOutcome (.sb5 b) s (stepSb5 b s) := by
  unfold stepSb5
  split
  · exact .next rfl
  · next hstrat =>
    split
    · exact .next rfl
    · next hedge => exact .waited ⟨hstrat, Bool.eq_false_iff.2 hedge⟩

theorem stepSb7_transfer (b : Byte) : TransferOutcome (.sb7 b) s (stepSb7 b s) := by
  unfold stepSb7
  split
  · exact .next rfl
  · exact .next rfl

theorem stepSb7f_transfer (b v : Byte) : TransferOutcome (.sb7f b v) s (stepSb7f b v s) := by
  unfold stepSb7f
  split <;> exact .next rfl

/-- Every step of a transfer ends in one of the three ways. -/
theorem micro_transfer (hl : l.ofTransfer = true) (h : micro l s = .next t) : TransferOutcome l s t := by
  cases l with
  | sb1 b => cases h; exact stepSb1_transfer b
  | sb2 b => cases h; exact .next rfl
  | sb3 b => cases h; exact .next rfl
  | sb4 b => cases h; exact .next rfl
  | sb5 b => cases h; exact stepSb5_transfer b
  | sb6 b => cases h; exact .next rfl
  | sb7 b => cases h; exact stepSb7_transfer b
  | sb7a b => cases h; exact .next (afterRelease_courseFrame _)
  | sb7b b => cases h; exact .next (afterClaim_courseFrame _ _)
  | sb7c b => cases h; exact .next (sampleData_courseFrame s)
  | sb7d b v => cases h; exact .next (afterRelease_courseFrame _)
  | sb7e b v => cases h; exact .next (afterClaim_courseFrame _ _)
  | sb7f b v => cases h; exact stepSb7f_transfer b v
  | sb8 => cases h; exact .returned rfl
  | rb1 => cases h; exact .next rfl
  | rb2 => cases h; exact .next (sampleData_courseFrame s)
  | rb3 => cases h; exact .next rfl
  | rb4 => cases h; exact .next rfl
  | rb5 => cases h; exact .next rfl
  | rb6 => cases h; exact .returned rfl
  | _ => cases hl

/-! ### The steps of a command's own -/

/-- The three ways a step of a command's own can end. -/
inductive OwnOutcome (l : Label) (s : State) : State → Prop where
  | ended {t : State} (ht : t.run = .ready) : OwnOutcome l s t
  | wentOn {u : State} {ts : List Label} {l' : Label} (hrun : u.run = s.run) (hseq : u.seq = s.seq)
      (hts : ∀ x ∈ ts, x.ofTransfer = true) (hl' : l'.ofTransfer = false) (hidx : indexOk l' u)
      (hturns : turnsOf u.plen u.idx.toNat (ts ++ [l']) < l.turns s.plen s.idx.toNat) :
      OwnOutcome l s (goto (ts ++ [l']) u)
  | looped (hawaits : awaitsPeer l s) : OwnOutcome l s (goto [.dr3] s)

theorem OwnOutcome.next {l' : Label} (hu : courseFrame u = courseFrame s) (hidx : indexOk l' u)
    (hl' : l'.ofTransfer = false := by rfl)
    (hturns : l'.turns s.plen s.idx.toNat < l.turns s.plen s.idx.toNat := by exact Nat.le_of_ble_eq_true rfl) :
    OwnOutcome l s (goto [l'] u) := by
  simp only [courseFrame, Prod.mk.injEq] at hu
  obtain ⟨hrun, hseq, hindex, hplen⟩ := hu
  exact .wentOn (ts := []) hrun hseq nofun hl' hidx (by simpa [hindex, hplen] using hturns)

/-- A command's own label calls a transfer and waits below it. -/
theorem OwnOutcome.call {x l' : Label} (hx : x.ofTransfer = true) (hl' : l'.ofTransfer = false) (hidx : indexOk l' s)
    (hturns : turnsOf s.plen s.idx.toNat [x, l'] < l.turns s.plen s.idx.toNat) : OwnOutcome l s (goto [x, l'] s) :=
  .wentOn (ts := [x]) rfl rfl (by simpa using hx) hl' hidx hturns

theorem completeOrRaise_run (r : Except Cause State) (s : State) : (completeOrRaise r s).run = .ready := by
  cases r <;> rfl

theorem claimThen_own {o : Owner} {d : Dir} {next : Label} (hidx : ∀ u : State, indexOk next u)
    (hnext : next.ofTransfer = false) (hturns : next.turns s.plen s.idx.toNat < l.turns s.plen s.idx.toNat) :
    OwnOutcome l s (claimThen o d next s) := by
  unfold claimThen
  split
  · next u hu => exact .next (claimBus_courseFrame hu) (hidx u) hnext hturns
  · exact .ended rfl

theorem stratack_own : OwnOutcome .stratack s
    (if s.strat = .acknowledged then raiseError .precondition s else complete { s with strat := .acknowledged }) := by
  split <;> exact .ended rfl

theorem stepRecv_own : OwnOutcome .recv s (stepRecv s) := by
  unfold stepRecv
  split
  · exact .ended rfl
  · split
    · exact .ended rfl
    · exact .call rfl rfl trivial (Nat.le_of_ble_eq_true rfl)

theorem stepDl1_own : OwnOutcome .dl1 s (stepDl1 s) := by
  unfold stepDl1
  split
  · exact .ended rfl
  · next hlen => exact .next rfl (Nat.le_of_not_lt hlen) rfl (by simp)

theorem stepDi1_own : OwnOutcome .di1 s (stepDi1 s) := by
  unfold stepDi1
  split
  · exact .ended rfl
  · next hlen =>
    split
    · exact .ended rfl
    · exact .next rfl (Nat.le_of_not_lt hlen) rfl (by simp)

theorem stepDl3_own (hidx : indexOk (.dl3 n) s) : OwnOutcome (.dl3 n) s (goto [.dl4 n] { s with idx := 0#17 }) :=
  .wentOn (ts := []) rfl rfl nofun rfl ⟨hidx, Nat.succ_pos _⟩ (by simp)

theorem stepDl4_own (hidx : indexOk (.dl4 n) s) (b : Byte) : OwnOutcome (.dl4 n) s (goto [.sb1 b, .dl5 n] s) := by
  have hlt : s.idx.toNat < n + 7 := hidx.2
  refine .call rfl rfl hidx ?_
  simp only [turnsOf_cons, turnsOf_nil, Label.turns_sb1, Label.turns_dl4, Label.turns_dl5]
  omega

/-- DL5 counts a byte, `IDX` being too small to wrap, and the bytes left are one fewer. -/
theorem stepDl5_own (hidx : indexOk (.dl5 n) s) : OwnOutcome (.dl5 n) s (stepDl5 n s) := by
  obtain ⟨hn, hlt⟩ : n ≤ 65535 ∧ s.idx.toNat < n + 7 := hidx
  have hsucc : (s.idx + 1#17).toNat = s.idx.toNat + 1 := by
    rw [BitVec.toNat_add, show (1#17).toNat = 1 from rfl, Nat.mod_eq_of_lt (by omega)]
  unfold stepDl5
  split
  · next hmore =>
    refine .wentOn (ts := []) (u := { s with idx := s.idx + 1#17 }) rfl rfl nofun rfl ⟨hn, hmore⟩ ?_
    simp only [List.nil_append, turnsOf_cons, turnsOf_nil, Label.turns_dl4, Label.turns_dl5, hsucc]
    omega
  · exact .wentOn (ts := []) (u := { s with idx := s.idx + 1#17 }) rfl rfl nofun rfl trivial (by simp)

theorem stepDr1_own : OwnOutcome .dr1 s (stepDr1 s) := by
  unfold stepDr1
  split
  · exact .ended rfl
  · exact .next rfl trivial

theorem stepDr5_own : OwnOutcome .dr5 s (stepDr5 s) := by
  unfold stepDr5
  split
  · next hirdy => exact .looped hirdy
  · exact .next rfl trivial

/-- Every step of a command's own ends in one of the three ways. -/
theorem micro_own (hl : l.ofTransfer = false) (hidx : indexOk l s) (h : micro l s = .next t) : OwnOutcome l s t := by
  cases l with
  | illegal => cases h; exact .ended rfl
  | claim o d => cases h; exact .ended (completeOrRaise_run _ s)
  | release o => cases h; exact .ended (completeOrRaise_run _ s)
  | stratack => cases h; exact stratack_own
  | setrb v => cases h; exact .ended rfl
  | setload x => cases h; exact .ended rfl
  | setexec x => cases h; exact .ended rfl
  | setlen x => cases h; exact .ended rfl
  | take => cases h; exact .ended rfl
  | complete => cases h; exact .ended rfl
  | recv => cases h; exact stepRecv_own
  | dl1 => cases h; exact stepDl1_own
  | di1 => cases h; exact stepDi1_own
  | dl2 n => cases h; exact claimThen_own (fun _ => hidx) rfl (Nat.lt_succ_self _)
  | dl3 n => cases h; exact stepDl3_own hidx
  | dl4 n => obtain ⟨b, rfl⟩ := stepDl4_eq_next h; exact stepDl4_own hidx b
  | dl5 n => cases h; exact stepDl5_own hidx
  | dl6 => cases h; exact .next (afterRelease_courseFrame _) trivial
  | dl7 => cases h; exact .ended rfl
  | dr1 => cases h; exact stepDr1_own
  | dr2 => cases h; exact claimThen_own (fun _ => trivial) rfl (Nat.lt_succ_self 10)
  | dr3 => cases h; exact .call rfl rfl trivial (Nat.le_of_ble_eq_true rfl)
  | dr4 => cases h; exact .next rfl trivial
  | dr5 => cases h; exact stepDr5_own
  | dr6 => cases h; exact .ended rfl
  | _ => cases hl

/-! ### A turn of the engine -/

theorem indexOk_congr (h : t.idx = s.idx) : indexOk l t ↔ indexOk l s := by
  unfold indexOk
  rw [h]

/-- What a turn with at most `n` turns left does: it ends the command, takes one off, or awaits the peer, which may begin
another turn of DRAIN's loop. -/
inductive TurnTaken (n : Nat) (s t : State) : Prop where
  | ended (ht : t.run = .ready)
  | fewerLeft (ht : TurnsLeft (n - 1) t)
  | awaited (hawaits : Awaits s) (ht : TurnsLeft (max n 10) t)

theorem TurnTaken.of_own {own : Label} (hrun : s.run = .busy) (hseq : s.seq = [own])
    (hturns : turnsOf s.plen s.idx.toNat s.seq ≤ n) (hl : OwnOutcome own { s with seq := [] } t) :
    TurnTaken n s t := by
  rw [hseq] at hturns
  cases hl with
  | ended ht => exact .ended ht
  | @wentOn u ts l' hrun' hseq' hts hl' hidx hdown =>
    have hdown' : turnsOf u.plen u.idx.toNat (ts ++ [l']) < own.turns s.plen s.idx.toNat := hdown
    refine .fewerLeft ⟨hrun'.trans hrun, ⟨ts, l', by simp [hseq'], hts, hl', hidx⟩, ?_⟩
    simp only [turnsOf_cons, turnsOf_nil, goto_plen, goto_idx, goto_seq, hseq', List.append_nil] at hturns ⊢
    omega
  | looped hawaits =>
    exact .awaited ⟨own, [], hseq, hawaits⟩ ⟨hrun, ⟨[], .dr3, rfl, nofun, rfl, trivial⟩, le_max_right n 10⟩

theorem TurnTaken.of_transfer {x own : Label} {ts : List Label} (hrun : s.run = .busy) (hseq : s.seq = x :: ts ++ [own])
    (hts : ∀ y ∈ x :: ts, y.ofTransfer = true) (hown : own.ofTransfer = false) (hidx : indexOk own s)
    (hturns : turnsOf s.plen s.idx.toNat s.seq ≤ n) (hx : TransferOutcome x { s with seq := ts ++ [own] } t) :
    TurnTaken n s t := by
  cases hx with
  | raised c => exact .ended rfl
  | @wentOn u ls hu hls hdown =>
    simp only [courseFrame, Prod.mk.injEq] at hu
    obtain ⟨hrun', hseq', hindex, hplen⟩ := hu
    refine .fewerLeft ⟨hrun'.trans hrun, ⟨ls ++ ts, own, by simp [hseq'], ?_, hown, (indexOk_congr hindex).2 hidx⟩, ?_⟩
    · exact List.forall_mem_append.2 ⟨hls, fun y hy => hts y (List.mem_cons_of_mem x hy)⟩
    · have := hdown s.plen s.idx.toNat
      rw [hseq] at hturns
      simp only [List.cons_append, turnsOf_cons, turnsOf_append, goto_plen, goto_idx, goto_seq, hseq', hindex, hplen]
        at hturns ⊢
      omega
  | waited hawaits =>
    refine .awaited ⟨x, _, hseq, hawaits⟩ ⟨hrun, ⟨x :: ts, own, rfl, hts, hown, hidx⟩, ?_⟩
    rw [hseq] at hturns
    exact hturns.trans (le_max_left n 10)

/-- A turn ends the command or takes one off the turns left, unless the command awaits the peer. -/
theorem TurnsLeft.turnTaken (h : TurnsLeft n s) (ht : engineTurn s = .next t) : TurnTaken n s t := by
  obtain ⟨hrun, ⟨ts, own, hseq, hts, hown, hidx⟩, hturns⟩ := h
  cases ts with
  | nil =>
    rw [engineTurn_at hrun hseq] at ht
    exact .of_own hrun hseq hturns (micro_own hown hidx ht)
  | cons x ts =>
    rw [engineTurn_at hrun hseq] at ht
    exact .of_transfer hrun hseq hts hown hidx hturns (micro_transfer (hts x List.mem_cons_self) ht)

/-! ### A run with turns enough -/

/-- The command has ended, or nothing is to come and it awaits the peer. -/
def Settled (t : State) : Prop := t.run = .ready ∨ (t.run = .busy ∧ t.env = [] ∧ Awaits t)

theorem settled_of_ended {k : Nat} (hs : s.run = .ready) (h : runFor k s = .next t) : Settled t := by
  rw [runFor_ended (by simp [hs])] at h
  cases h
  exact .inl hs

theorem TurnsLeft.settled_of_left {k : Nat} (hs : TurnsLeft n s) (hleft : leftToEnv s = true)
    (h : runFor k s = .next t) : Settled t := by
  rw [runFor_left hleft] at h
  cases h
  exact .inr ⟨hs.run, hs.leftToEnv_iff.1 hleft⟩

/-- A run that is not looked at and not left to the environment takes a micro-step. -/
theorem exists_turn_of_runFor {k : Nat} (hrun : s.run = .busy) (hleft : ¬ leftToEnv s = true)
    (hlook : hostLooks s = false) (h : runFor (k + 1) s = .next t) :
    ∃ u v, letEnvAct s = .next u ∧ engineTurn u = .next v ∧ runFor k v = .next t := by
  rw [runFor, if_neg (by simpa [hrun] using hleft), if_neg (by simp [hlook])] at h
  obtain ⟨v, hv, hrest⟩ := andThen_eq_next.1 h
  obtain ⟨u, hu, hturn⟩ := andThen_eq_next.1 hv
  exact ⟨u, v, hu, hturn, hrest⟩

theorem engineTurn_env (h : engineTurn s = .next t) : t.env = s.env :=
  engineTurn_keeps (P := fun u => u.env = s.env) (fun _ _ _ _ _ _ hu h => (micro_env h).trans hu) s t rfl h

/-- With nothing to come, as many turns as are left bring the command to its end or to a wait. -/
theorem TurnsLeft.runFor_settled_of_nil {k : Nat} (hs : TurnsLeft n s) (henv : s.env = []) (hk : n ≤ k)
    (h : runFor k s = .next t) : Settled t := by
  induction k generalizing n s with
  | zero => exact absurd hs.pos (by omega)
  | succ k ih =>
    by_cases hleft : leftToEnv s = true
    · exact hs.settled_of_left hleft h
    · obtain ⟨u, v, hu, hturn, hrest⟩ := exists_turn_of_runFor hs.run hleft (hostLooks_nil henv) h
      rw [letEnvAct_nil henv] at hu
      cases hu
      cases hs.turnTaken hturn with
      | ended hend => exact settled_of_ended hend hrest
      | fewerLeft hv => exact ih hv ((engineTurn_env hturn).trans henv) (by omega) hrest
      | awaited hawaits => exact absurd (hs.leftToEnv_iff.2 ⟨henv, hawaits⟩) hleft

/-- Nothing that bounds the turns left is the peer's. -/
theorem TurnsLeft.of_letEnvAct (hs : TurnsLeft n s) (hp : peerOnly s = true) (h : letEnvAct s = .next u) :
    TurnsLeft n u := by
  obtain ⟨hrun, hseq, hturns⟩ := hs
  rw [(peerTouchesOnlyItsOwnState s u hp h).1]
  exact ⟨hrun, hseq, hturns⟩

theorem peerOnly_of_env_tail (h : t.env = s.env.tail) (hp : peerOnly s = true) : peerOnly t = true := by
  rw [peerOnly, List.all_eq_true] at hp ⊢
  exact fun es hes => hp es (List.mem_of_mem_tail (h ▸ hes))

/-- Past the schedule, whose every entry takes a turn, `n` more turns suffice. -/
theorem TurnsLeft.runFor_settled {k : Nat} (hs : TurnsLeft n s) (hp : peerOnly s = true) (hn : 10 ≤ n)
    (hk : s.env.length + n ≤ k) (h : runFor k s = .next t) : Settled t := by
  induction k generalizing s with
  | zero => omega
  | succ k ih =>
    by_cases henv : s.env = []
    · exact hs.runFor_settled_of_nil henv (by omega) h
    by_cases hleft : leftToEnv s = true
    · exact hs.settled_of_left hleft h
    obtain ⟨u, v, hu, hturn, hrest⟩ := exists_turn_of_runFor hs.run hleft (hostLooks_peerOnly hp) h
    have htail : v.env = s.env.tail := (engineTurn_env hturn).trans (letEnvAct_env hu)
    have hlen : v.env.length + n ≤ k := by
      have := List.length_pos_iff.2 henv
      rw [htail, List.length_tail]
      omega
    have hv := peerOnly_of_env_tail htail hp
    cases (hs.of_letEnvAct hp hu).turnTaken hturn with
    | ended hend => exact settled_of_ended hend hrest
    | fewerLeft hnext => exact ih (hnext.mono (Nat.sub_le n 1)) hv hlen hrest
    | awaited _ hnext => exact ih (max_eq_left hn ▸ hnext) hv hlen hrest

/-! ### A command -/

theorem turnsLeft_accept_own {own : Label} (w : CmdWord) (hown : own.ofTransfer = false) (hidx : indexOk own s)
    (hturns : own.turns s.plen s.idx.toNat ≤ n) : TurnsLeft n (accept w [own] s) :=
  ⟨rfl, ⟨[], own, rfl, nofun, hown, hidx⟩, by simpa using hturns⟩

/-- Every command starts with no more turns left than `turnsFor` allows past the schedule. -/
theorem turnsLeft_accept (w : CmdWord) (i : Instr) (s : State) :
    TurnsLeft (32 * (s.plen + 8)) (accept w (startLabels i) s) := by
  have hone : 1 ≤ 32 * (s.plen + 8) := by omega
  cases i with
  | claim o d => simp only [startLabels]; split <;> exact turnsLeft_accept_own w rfl trivial hone
  | release o => simp only [startLabels]; split <;> exact turnsLeft_accept_own w rfl trivial hone
  | sendb b =>
    refine ⟨rfl, ⟨[.sb1 b], .complete, rfl, List.forall_mem_singleton.2 rfl, rfl, trivial⟩, ?_⟩
    show 14 + (1 + 0) ≤ 32 * (s.plen + 8)
    omega
  | sendw x =>
    refine ⟨rfl, ⟨[.sb1 (encodeWord x).1, .sb1 (encodeWord x).2], .complete, rfl,
      List.forall_mem_cons.2 ⟨rfl, List.forall_mem_singleton.2 rfl⟩, rfl, trivial⟩, ?_⟩
    show 14 + (14 + (1 + 0)) ≤ 32 * (s.plen + 8)
    omega
  | recvb => exact turnsLeft_accept_own w rfl trivial (show 8 ≤ _ by omega)
  | drain => exact turnsLeft_accept_own w rfl trivial (show 12 ≤ _ by omega)
  | dload => exact turnsLeft_accept_own w rfl trivial (show 16 * (s.plen + 7) + 5 ≤ _ by omega)
  | dloadi => exact turnsLeft_accept_own w rfl trivial (show 16 * (s.plen + 7) + 5 ≤ _ by omega)
  | _ => exact turnsLeft_accept_own w rfl trivial hone

/-- A wait in the words of the statement: SB5 with no edge latched, or DR5 with data ready active. -/
theorem Awaits.cases (h : Awaits t) :
    (∃ b rest, t.seq = .sb5 b :: rest ∧ t.strat = .acknowledged ∧ t.ackEdge = false) ∨
      (∃ rest, t.seq = .dr5 :: rest ∧ t.irdy = .active) := by
  obtain ⟨l, rest, hseq, hawaits⟩ := h
  cases l with
  | sb5 b => exact .inl ⟨b, rest, hseq, hawaits⟩
  | dr5 => exact .inr ⟨rest, hseq, hawaits⟩
  | _ => exact hawaits.elim

theorem runCommand_settled (w : CmdWord) (i : Instr) (hp : peerOnly s = true)
    (h : runCommand w (startLabels i) s = .next t) : Settled t := by
  unfold runCommand at h
  split at h
  · exact (turnsLeft_accept w i s).runFor_settled hp (by omega) le_rfl h
  · cases h

/-- Settles O9: a command starts with no more turns left than `exec` gives it, and a run with turns enough settles. -/
theorem commandEndsOrAwaitsThePeer : Obligations.CommandEndsOrAwaitsThePeer := by
  intro i s t hp h
  rw [exec_eq] at h
  have hpeer : peerOnly (beforeStart i s) = true := by rwa [peerOnly, beforeStart_env]
  exact (runCommand_settled (encode i) i hpeer h).imp_right fun ⟨hrun, henv, hawaits⟩ => ⟨hrun, henv, hawaits.cases⟩

end Sys2Proof.Machine
end

section
/-! The arbiter (spec 40_arbiter.md): what CLAIM and RELEASE write in full, and who else writes the bus. -/

namespace Sys2Proof.Machine

variable {l : Label} {s s1 t : State} {o : Owner} {d : Dir}

/-! ### While only the peer acts -/

/-- The events due land, and the bus keeps its owner. -/
theorem exists_letEnvAct_owner (hp : peerOnly s = true) : ∃ s1, letEnvAct s = .next s1 ∧ s1.owner = s.owner := by
  obtain ⟨s1, hs1, -⟩ := letEnvAct_peerBlind (peerBlind_accept 0#32 []) hp
  obtain ⟨hacted, -⟩ := peerTouchesOnlyItsOwnState s s1 hp hs1
  exact ⟨s1, hs1, by rw [hacted]⟩

/-- A command that starts at one label, no wait, ends as that micro-step ends it on the state the events due left. -/
theorem exec_of_micro {i : Instr} (hstart : startLabels i = [l]) (hbefore : beforeStart i s = s)
    (hwait : leftToEnv (accept (encode i) [l] s) = false) (hready : s.run = .ready) (hp : peerOnly s = true)
    (hs1 : letEnvAct s = .next s1) (hmicro : micro l (accept (encode i) [] s1) = .next t) (hend : t.run ≠ .busy) :
    exec i s = .next t := by
  rw [exec_eq, hstart, hbefore]
  exact runCommand_one hready hp hwait hs1 hmicro hend

/-! ### CLAIM and RELEASE -/

theorem micro_claim (o : Owner) (d : Dir) (s : State) :
    micro (.claim o d) s = .next (completeOrRaise (claimBus o d s) s) := rfl

theorem micro_release (o : Owner) (s : State) :
    micro (.release o) s = .next (completeOrRaise (releaseBus o s) s) := rfl

theorem startLabels_claim (h : legalClaim o d = true) : startLabels (.claim o d) = [.claim o d] := by
  simp [startLabels, h]

theorem startLabels_release (h : legalRelease o = true) : startLabels (.release o) = [.release o] := by
  simp [startLabels, h]

/-- Settles O17: the micro-step is `Claim` on the accepted state, whose owner the peer left alone. -/
theorem claimCommandEffect : Obligations.ClaimCommandEffect := by
  intro s o d hlegal hready hp
  obtain ⟨s1, hs1, howner⟩ := exists_letEnvAct_owner hp
  refine ⟨s1, hs1, ?_⟩
  rw [← howner]
  refine ⟨fun hfree => ?_, fun howned => ?_⟩ <;>
    refine exec_of_micro (startLabels_claim hlegal) rfl (Bool.and_false _) hready hp hs1 ?_ nofun <;>
    rw [micro_claim, claimBus_eq, accept_owner]
  · rw [if_pos hfree]
    rcases legalClaim_iff.1 hlegal with ⟨rfl, rfl⟩ | ⟨rfl, rfl⟩ <;> rfl
  · rw [if_neg howned]
    rfl

/-- Settles O18: the micro-step is `Release` on the accepted state, whose owner the peer left alone. -/
theorem releaseCommandEffect : Obligations.ReleaseCommandEffect := by
  intro s o hlegal hready hp
  obtain ⟨s1, hs1, howner⟩ := exists_letEnvAct_owner hp
  refine ⟨s1, hs1, ?_⟩
  rw [← howner]
  refine ⟨fun hown => ?_, fun hother => ?_⟩ <;>
    refine exec_of_micro (startLabels_release hlegal) rfl (Bool.and_false _) hready hp hs1 ?_ nofun <;>
    rw [micro_release, releaseBus_eq, accept_owner]
  · rw [if_pos hown]
    rcases legalRelease_iff.1 hlegal with rfl | rfl <;> rfl
  · rw [if_neg hother]
    rfl

/-! ### Who writes the bus -/

/-- No event but CANCEL and reset writes the bus (R100). -/
theorem applyEvent_bus {e : Event} (hcancel : e ≠ .cancel) (hreset : e ≠ .reset) (h : applyEvent e s = .next t) :
    t.owner = s.owner ∧ t.dir = s.dir ∧ t.csho = s.csho ∧ t.cspi = s.cspi := by
  cases hpeer : e.ofPeer with
  | true =>
    obtain ⟨hacted, -⟩ := applyEvent_onlyPeerActed hpeer h
    rw [hacted]
    exact ⟨rfl, rfl, rfl, rfl⟩
  | false =>
    cases e with
    | cancel => exact absurd rfl hcancel
    | reset => exact absurd rfl hreset
    | supply bs => obtain ⟨rfl, -⟩ := supplyNow_eq_next h; exact ⟨rfl, rfl, rfl, rfl⟩
    | hostReads => cases h; exact ⟨rfl, rfl, rfl, rfl⟩
    | _ => cases hpeer

/-- CANCEL drops the owner's chip-select only; that the other was inactive is the arbiter's invariant. -/
theorem cancelNow_bus (hs : arbiterOk s = true) :
    (cancelNow s).owner = .none ∧ (cancelNow s).dir = .input
      ∧ (cancelNow s).csho = .inactive ∧ (cancelNow s).cspi = .inactive := by
  obtain ⟨tr, hcancel⟩ := exists_cancelNow_eq s
  rw [hcancel]
  refine ⟨rfl, rfl, ?_⟩
  cases howner : s.owner with
  | none =>
    obtain ⟨⟨-, hcsho⟩, hcspi⟩ := (arbiterOk_none howner).1 hs
    exact ⟨hcsho, hcspi⟩
  | hostOutput =>
    obtain ⟨-, hcspi⟩ := (arbiterOk_hostOutput howner).1 hs
    exact ⟨rfl, hcspi⟩
  | peerInput =>
    obtain ⟨⟨-, hcsho⟩, -⟩ := (arbiterOk_peerInput howner).1 hs
    exact ⟨hcsho, rfl⟩

theorem cancel_of_not_halted (h : s.run ≠ .halted) : cancel s = cancelNow (emit .cancelled s) := if_neg h

/-- Settles O19: micro-steps without an arbiter call and the other events leave the bus; CANCEL and reset idle it. -/
theorem onlyTheArbiterWritesTheBus : Obligations.OnlyTheArbiterWritesTheBus := by
  refine ⟨fun _ _ _ => micro_bus, fun _ _ _ => applyEvent_bus, ?_⟩
  rintro e s t (rfl | ⟨rfl, hrun, hs⟩) h <;> cases h
  · exact ⟨rfl, rfl, rfl, rfl⟩
  · rw [cancel_of_not_halted hrun]
    exact cancelNow_bus (s := emit .cancelled s) hs

end Sys2Proof.Machine
end

section
/-! The byte and word codec (spec 41_codec.md R120 to R126): what each line of an encoded Byte carries, which line decides each
bit of a decoded one, and the numbers a Word is split into and joined from. -/

namespace Sys2Proof.Machine

/-! ### A port's order -/

theorem bitPos_lt (o : BitOrder) {p : Nat} (hp : p < 8) : bitPos o p < 8 := by
  cases o with
  | descending => exact Nat.lt_succ_of_le (Nat.sub_le 7 p)
  | ascending => exact hp

theorem bitPos_bitPos (o : BitOrder) {p : Nat} (hp : p < 8) : bitPos o (bitPos o p) = p := by
  cases o with
  | descending => exact Nat.sub_sub_self (Nat.le_of_lt_succ hp)
  | ascending => rfl

/-- No bit is carried by two lines. -/
theorem bitPos_inj {o : BitOrder} {p q : Nat} (hp : p < 8) (hq : q < 8) : bitPos o p = bitPos o q ↔ p = q :=
  ⟨fun h => by rw [← bitPos_bitPos o hp, h, bitPos_bitPos o hq], congrArg _⟩

/-- A Byte is fixed by what each line of a port carries. -/
theorem byte_eq_of_getLsbD_bitPos (o : BitOrder) {a b : Byte}
    (h : ∀ p < 8, a.getLsbD (bitPos o p) = b.getLsbD (bitPos o p)) : a = b := by
  apply BitVec.eq_of_getLsbD_eq
  intro k hk
  have hline := h (bitPos o k) (bitPos_lt o hk)
  rwa [bitPos_bitPos o hk] at hline

/-! ### Bytes and levels -/

@[simp] theorem Level.bit_ofBit (b : Bool) : (Level.ofBit b).bit = b := by
  cases b <;> rfl

@[simp] theorem Level.ofBit_bit (l : Level) : Level.ofBit l.bit = l := by
  cases l <;> rfl

theorem getElem_encodeLevels (o : BitOrder) (b : Byte) {p : Nat} (hp : p < 8) :
    (encodeLevels o b)[p] = Level.ofBit (b.getLsbD (bitPos o p)) :=
  Vector.getElem_ofFn hp

/-- A bit of Bytes joined by OR is set exactly if one of them sets it. -/
theorem getLsbD_foldl_or {α : Type} (f : α → Byte) (xs : List α) (acc : Byte) (k : Nat) :
    (xs.foldl (fun acc x => acc ||| f x) acc).getLsbD k = (acc.getLsbD k || xs.any fun x => (f x).getLsbD k) := by
  induction xs generalizing acc with
  | nil => exact (Bool.or_false _).symm
  | cons x xs ih => rw [List.foldl_cons, ih, BitVec.getLsbD_or, List.any_cons, Bool.or_assoc]

/-- What one line adds to the decoded Byte: its own bit, if it is active. -/
theorem getLsbD_lineBit (l : Level) {j k : Nat} (hk : k < 8) :
    (if l.bit then 1#8 <<< j else 0#8).getLsbD k = (l.bit && decide (j = k)) := by
  cases l.bit with
  | false => exact BitVec.getLsbD_zero
  | true =>
    have hbit : (BitVec.twoPow 8 j).getLsbD k = (decide (j < 8) && decide (j = k)) := BitVec.getLsbD_twoPow j k
    rw [BitVec.twoPow_eq] at hbit
    rw [if_pos rfl, hbit, Bool.true_and, Bool.and_eq_right_iff_imp]
    simp only [decide_eq_true_eq]
    omega

/-- Each line alone decides the bit it carries (R122). -/
theorem getLsbD_decodeLevels (o : BitOrder) (lv : Vector Level 8) {p : Nat} (hp : p < 8) :
    (decodeLevels o lv).getLsbD (bitPos o p) = lv[p].bit := by
  have hline (q : Fin 8) :
      (if lv[q].bit then 1#8 <<< bitPos o q else 0#8).getLsbD (bitPos o p) = true ↔ lv[q].bit = true ∧ q = ⟨p, hp⟩ := by
    rw [getLsbD_lineBit _ (bitPos_lt o hp), Bool.and_eq_true, decide_eq_true_iff, bitPos_inj q.isLt hp, Fin.ext_iff]
  rw [decodeLevels, getLsbD_foldl_or, BitVec.getLsbD_zero, Bool.false_or, Bool.eq_iff_iff, List.any_eq_true]
  constructor
  · rintro ⟨q, -, hq⟩
    obtain ⟨hbit, rfl⟩ := (hline q).1 hq
    exact hbit
  · intro hbit
    exact ⟨⟨p, hp⟩, List.mem_finRange _, (hline _).2 ⟨hbit, rfl⟩⟩

theorem decodeLevels_encodeLevels (o : BitOrder) (b : Byte) : decodeLevels o (encodeLevels o b) = b := by
  apply byte_eq_of_getLsbD_bitPos o
  intro p hp
  rw [getLsbD_decodeLevels o _ hp, getElem_encodeLevels o b hp, Level.bit_ofBit]

theorem encodeLevels_decodeLevels (o : BitOrder) (lv : Vector Level 8) : encodeLevels o (decodeLevels o lv) = lv := by
  apply Vector.ext
  intro p hp
  rw [getElem_encodeLevels o _ hp, getLsbD_decodeLevels o lv hp, Level.ofBit_bit]

/-! ### Words -/

theorem encodeWord_decodeWord (hi lo : Byte) : encodeWord (decodeWord hi lo) = (hi, lo) :=
  Prod.ext BitVec.extractLsb'_append_eq_left BitVec.extractLsb'_append_eq_right

theorem toNat_encodeWord_fst (w : Word) : (encodeWord w).1.toNat = w.toNat / 256 := by
  rw [encodeWord, BitVec.extractLsb'_toNat, Nat.shiftRight_eq_div_pow]
  exact Nat.mod_eq_of_lt (Nat.div_lt_of_lt_mul w.isLt)

theorem toNat_encodeWord_snd (w : Word) : (encodeWord w).2.toNat = w.toNat % 256 := by
  rw [encodeWord, BitVec.extractLsb'_toNat, Nat.shiftRight_zero]

theorem toNat_decodeWord (hi lo : Byte) : (decodeWord hi lo).toNat = hi.toNat * 256 + lo.toNat := by
  rw [decodeWord, BitVec.toNat_append, ← Nat.shiftLeft_add_eq_or_of_lt lo.isLt, Nat.shiftLeft_eq]

/-! ### The statements -/

/-- Settles O55: each line alone decides the bit it carries, and a Word is its two Bytes side by side. -/
theorem codecRoundTrips : Obligations.CodecRoundTrips :=
  ⟨decodeLevels_encodeLevels, encodeLevels_decodeLevels, decodeWord_encodeWord, encodeWord_decodeWord⟩

/-- Settles O56: the level of each line in either order, and the slices and their joining as numbers. -/
theorem codecBitsAndBytes : Obligations.CodecBitsAndBytes := by
  refine ⟨fun o b p hp => ?_, fun w => ⟨toNat_encodeWord_fst w, toNat_encodeWord_snd w⟩, toNat_decodeWord⟩
  rw [getElem_encodeLevels o b hp]
  cases o <;> rfl

end Sys2Proof.Machine
end

section
/-! The edge latches (spec 42_handshake.md R131 to R133): the peer's events set them exactly at a rise of their line, and of
the micro-steps SB3 and RB2 alone write them. -/

namespace Sys2Proof.Machine

variable {l : Label} {s t u : State} {α : Type} {F : State → α}

/-! ### What an arbiter call leaves alone -/

/-- `F` reads neither the bus nor the trace. -/
def BusBlind (F : State → α) : Prop :=
  ∀ s owner dir csho cspi tr,
    F { s with owner := owner, dir := dir, csho := csho, cspi := cspi, trace := tr } = F s

theorem BusBlind.claim (hF : BusBlind F) {o : Owner} {d : Dir} (h : claimBus o d s = .ok u) : F u = F s := by
  rw [claimBus_eq] at h
  split at h <;> cases h
  exact hF s _ _ _ _ _

theorem BusBlind.release (hF : BusBlind F) {o : Owner} (h : releaseBus o s = .ok u) : F u = F s := by
  rw [releaseBus_eq] at h
  split at h <;> cases h
  exact hF s _ _ _ _ _

theorem afterCall_frame {r : Except Cause State} (hr : ∀ {u}, r = .ok u → F u = F s) : F (afterCall r s) = F s := by
  cases r with
  | ok u => exact hr rfl
  | error c => rfl

theorem BusBlind.afterClaim (hF : BusBlind F) (o : Owner) (d : Dir) : F (afterCall (claimBus o d s) s) = F s :=
  afterCall_frame hF.claim

theorem BusBlind.afterRelease (hF : BusBlind F) (o : Owner) : F (afterCall (releaseBus o s) s) = F s :=
  afterCall_frame hF.release

theorem completeOrRaise_frame {r : Except Cause State} (hr : ∀ {u}, r = .ok u → F u = F s)
    (hcomplete : ∀ s, F (complete s) = F s) (hraise : ∀ c s, F (raiseError c s) = F s) :
    F (completeOrRaise r s) = F s := by
  cases r with
  | ok u => exact (hcomplete u).trans (hr rfl)
  | error c => exact hraise c s

/-- A claim inside DLOAD or DRAIN goes on, or is a `ContentionError`. -/
theorem BusBlind.claimThen (hF : BusBlind F) {o : Owner} {d : Dir} {next : Label} (hgoto : ∀ ls s, F (goto ls s) = F s)
    (hraise : ∀ s, F (raiseError .contention s) = F s) : F (claimThen o d next s) = F s := by
  unfold Machine.claimThen
  split
  · next u hu => exact (hgoto _ u).trans (hF.claim hu)
  · next c hc => cases claimBus_error hc; exact hraise s

/-! ### Micro-steps -/

/-- Both edge latches. -/
def latches (s : State) : Bool × Bool := (s.ackEdge, s.rdyEdge)

theorem latches_busBlind : BusBlind latches := fun _ _ _ _ _ _ => rfl

theorem sampleData_latches (s : State) : latches (sampleData s).2 = latches s := by
  rw [sampleData_state]
  rfl

/-- Every micro-step but SB3 and RB2 leaves both latches (spec 42_handshake.md R132, R133). -/
theorem micro_latches (hsb3 : ∀ b, l ≠ .sb3 b) (hrb2 : l ≠ .rb2) (h : micro l s = .next t) : latches t = latches s := by
  cases l with
  | sb3 b => exact absurd rfl (hsb3 b)
  | rb2 => exact absurd rfl hrb2
  | claim o d => cases h; exact completeOrRaise_frame latches_busBlind.claim (fun _ => rfl) fun _ _ => rfl
  | release o => cases h; exact completeOrRaise_frame latches_busBlind.release (fun _ => rfl) fun _ _ => rfl
  | stratack => cases h; split <;> rfl
  | sb1 b => cases h; unfold stepSb1; split <;> rfl
  | sb5 b => cases h; unfold stepSb5; split <;> [rfl; (split <;> rfl)]
  | sb7 b => cases h; unfold stepSb7; split <;> rfl
  | sb7a b => cases h; exact latches_busBlind.afterRelease .hostOutput
  | sb7b b => cases h; exact latches_busBlind.afterClaim .peerInput .input
  | sb7c b => cases h; exact sampleData_latches s
  | sb7d b v => cases h; exact latches_busBlind.afterRelease .peerInput
  | sb7e b v => cases h; exact latches_busBlind.afterClaim .hostOutput .output
  | sb7f b v => cases h; unfold stepSb7f; split <;> rfl
  | recv => cases h; unfold stepRecv; split <;> [rfl; (split <;> rfl)]
  | dl1 => cases h; unfold stepDl1; split <;> rfl
  | di1 => cases h; unfold stepDi1; split <;> [rfl; (split <;> rfl)]
  | dl2 n => cases h; exact latches_busBlind.claimThen (fun _ _ => rfl) fun _ => rfl
  | dl4 n => obtain ⟨b, rfl⟩ := stepDl4_eq_next h; rfl
  | dl6 => cases h; exact latches_busBlind.afterRelease .hostOutput
  | dr1 => cases h; unfold stepDr1; split <;> rfl
  | dr2 => cases h; exact latches_busBlind.claimThen (fun _ _ => rfl) fun _ => rfl
  | dr6 => cases h; exact latches_busBlind.afterRelease .peerInput
  | _ => cases h; rfl

theorem micro_ackEdge (hl : ∀ b, l ≠ .sb3 b) (h : micro l s = .next t) : t.ackEdge = s.ackEdge := by
  by_cases hrb2 : l = .rb2
  · subst hrb2
    cases h
    exact congrArg Prod.fst (sampleData_latches s)
  · exact congrArg Prod.fst (micro_latches hl hrb2 h)

theorem micro_rdyEdge (hl : l ≠ .rb2) (h : micro l s = .next t) : t.rdyEdge = s.rdyEdge := by
  by_cases hsb3 : ∃ b, l = .sb3 b
  · obtain ⟨b, rfl⟩ := hsb3
    cases h
    rfl
  · exact congrArg Prod.snd (micro_latches (fun b hb => hsb3 ⟨b, hb⟩) hl h)

/-! ### Events -/

theorem cancelNow_latches (s : State) : latches (cancelNow s) = (false, false) := by
  obtain ⟨tr, h⟩ := exists_cancelNow_eq s
  rw [h]
  rfl

/-- No event but CANCEL and reset clears a latch. -/
theorem applyEvent_latches_stay {e : Event} (hcancel : e ≠ .cancel) (hreset : e ≠ .reset)
    (h : applyEvent e s = .next t) : (s.ackEdge = true → t.ackEdge = true) ∧ (s.rdyEdge = true → t.rdyEdge = true) := by
  cases hpeer : e.ofPeer with
  | true =>
    obtain ⟨-, hack, hrdy, -⟩ := applyEvent_onlyPeerActed hpeer h
    exact ⟨hack, hrdy⟩
  | false =>
    cases e with
    | cancel => exact absurd rfl hcancel
    | reset => exact absurd rfl hreset
    | supply bs => obtain ⟨rfl, -⟩ := supplyNow_eq_next h; exact ⟨id, id⟩
    | hostReads => cases h; exact ⟨id, id⟩
    | _ => cases hpeer

/-- Settles O33: micro-step by micro-step and event by event. -/
theorem latchesAreClearedNowhereElse : Obligations.LatchesAreClearedNowhereElse := by
  refine ⟨fun l s t h => ⟨fun hl => micro_ackEdge hl h, fun hl => micro_rdyEdge hl h⟩, ?_, ?_,
    fun e s t => applyEvent_latches_stay, ?_⟩
  · rintro b s t h
    cases h
    rfl
  · rintro s t h
    cases h
    rfl
  · rintro e s t (rfl | ⟨rfl, hrun⟩) h <;> cases h
    · exact ⟨rfl, rfl⟩
    · rw [cancel_of_not_halted hrun]
      exact Prod.mk.inj (cancelNow_latches (emit .cancelled s))

/-- One event of the peer: each line stands where the event drives it, and its latch has seen a rise. -/
theorem applyEvent_lines {e : Event} (he : e.ofPeer = true) (h : applyEvent e s = .next t) :
    t.otkn = levelAfter .otkn s.otkn [e] ∧ t.irdy = levelAfter .irdy s.irdy [e]
      ∧ t.ackEdge = (s.ackEdge || risesIn .otkn s.otkn [e]) ∧ t.rdyEdge = (s.rdyEdge || risesIn .irdy s.irdy [e]) := by
  cases e with
  | otkn v => cases h; cases hs : s.otkn <;> cases v <;> simp [driveOtkn, levelAfter, Event.drives, risesIn, Level.bit, hs]
  | irdy v => cases h; cases hs : s.irdy <;> cases v <;> simp [driveIrdy, levelAfter, Event.drives, risesIn, Level.bit, hs]
  | pdata b => cases h; simp [levelAfter, Event.drives, risesIn]
  | heartbeat => cases h; simp [levelAfter, Event.drives, risesIn]
  | _ => cases he

theorem risesIn_append (p : PeerLine) (v : Level) (es es' : List Event) :
    risesIn p v (es ++ es') = (risesIn p v es || risesIn p (levelAfter p v es) es') := by
  induction es generalizing v with
  | nil => rfl
  | cons e es ih => cases h : e.drives p <;> simp [risesIn, levelAfter, h, ih, Bool.or_assoc]

/-- The lines and the latches after events of the peer (R131, R133). -/
theorem applyEvents_lines {es : List Event} (hes : es.all Event.ofPeer = true) (h : applyEvents es s = .next t) :
    t.otkn = levelAfter .otkn s.otkn es ∧ t.irdy = levelAfter .irdy s.irdy es
      ∧ t.ackEdge = (s.ackEdge || risesIn .otkn s.otkn es) ∧ t.rdyEdge = (s.rdyEdge || risesIn .irdy s.irdy es) := by
  induction es generalizing s with
  | nil => cases h; simp [levelAfter, risesIn]
  | cons e es ih =>
    rw [List.all_cons, Bool.and_eq_true] at hes
    obtain ⟨u, hu, hrest⟩ := andThen_eq_next.1 h
    obtain ⟨hotkn, hirdy, hack, hrdy⟩ := applyEvent_lines hes.1 hu
    obtain ⟨hotkn', hirdy', hack', hrdy'⟩ := ih hes.2 hrest
    rw [hotkn] at hotkn' hack'
    rw [hirdy] at hirdy' hrdy'
    refine ⟨hotkn', hirdy', ?_, ?_⟩
    · rw [hack', hack, Bool.or_assoc, ← risesIn_append, List.singleton_append]
    · rw [hrdy', hrdy, Bool.or_assoc, ← risesIn_append, List.singleton_append]

/-- Settles O32: by induction on the events, following the level of each line. -/
theorem edgesAreLatchedByThePeersEvents : Obligations.EdgesAreLatchedByThePeersEvents := by
  intro es s t hes h
  obtain ⟨-, -, hack, hrdy⟩ := applyEvents_lines hes h
  exact ⟨hack, hrdy⟩

end Sys2Proof.Machine
end

section
/-! What the sends and the receives leave alone (spec 10_state.md section 7): a command stays at labels of its own, and each of
their micro-steps keeps the frame. -/

namespace Sys2Proof.Machine

variable {l : Label} {s t u : State} {i : Instr} {α : Type}

/-! ### A command at its own labels -/

/-- While only the peer acts, what its moves and the micro-steps at labels of a kind keep, a command keeps that starts at
such labels and only ever goes to such labels. -/
theorem exec_keeps_at {P : State → Prop} {L : Label → Bool} (hpeer : ∀ s t, P s → OnlyPeerActed s t → P t)
    (hseq : ∀ s ls, P s → P { s with seq := ls })
    (hmicro : ∀ l s t, L l = true → P s → micro l s = .next t → P t ∧ ∀ x ∈ t.seq, x ∈ s.seq ∨ L x = true)
    (hstart : ∀ x ∈ startLabels i, L x = true) (hs : P (accept (encode i) (startLabels i) (beforeStart i s)))
    (hp : peerOnly s = true) (h : exec i s = .next t) : P t := by
  have hkept : peerOnly t = true ∧ P t ∧ ∀ x ∈ t.seq, L x = true := by
    refine exec_keeps (P := fun u => peerOnly u = true ∧ P u ∧ ∀ x ∈ u.seq, L x = true) ?_ ?_
      (fun _ => ⟨by rwa [peerOnly, accept_env, beforeStart_env], hs, hstart⟩) h
    · rintro u v ⟨hpu, hu, hlabels⟩ huv
      obtain ⟨heq, hack, hrdy, htr, henv⟩ := peerTouchesOnlyItsOwnState u v hpu huv
      refine ⟨peerOnly_of_env_tail henv hpu, hpeer u v hu ⟨heq, hack, hrdy, htr⟩, ?_⟩
      rw [heq]
      exact hlabels
    · refine engineTurn_keeps fun l rest u v _ hat hu huv => ?_
      obtain ⟨hpu, hPu, hlabels⟩ := hu
      rw [hat, List.forall_mem_cons] at hlabels
      obtain ⟨hv, hnew⟩ := hmicro l { u with seq := rest } v hlabels.1 (hseq u rest hPu) huv
      exact ⟨by rw [peerOnly, micro_env huv]; exact hpu, hv, fun x hx => (hnew x hx).elim (hlabels.2 x) id⟩
  exact hkept.2.1

/-- Every label that waits in `t` waited in `s` or is of the kind `L`. -/
def OnlyAdds (L : Label → Bool) (s t : State) : Prop := ∀ x ∈ t.seq, x ∈ s.seq ∨ L x = true

variable {L : Label → Bool}

theorem OnlyAdds.of_seq (h : t.seq = s.seq) : OnlyAdds L s t := fun _ hx => .inl (h ▸ hx)

theorem OnlyAdds.ended (h : t.seq = []) : OnlyAdds L s t := fun _ hx => absurd (h ▸ hx) List.not_mem_nil

theorem OnlyAdds.goto {ls : List Label} (h : u.seq = s.seq) (hls : ∀ x ∈ ls, L x = true) : OnlyAdds L s (goto ls u) :=
  fun x hx => (List.mem_append.1 hx).elim (fun hx => .inr (hls x hx)) fun hx => .inl (h ▸ hx)

/-! ### The sends -/

/-- A label of SENDB or SENDW. -/
def Label.ofSendCommand (l : Label) : Bool := l.ofSend || l = .complete

/-- What SENDB and SENDW leave alone; of `ERRSTAT` every bit but 4 and 7. -/
def sendFrame (s : State) :=
  ((s.din, s.loadAddr, s.execAddr, s.length, s.idx), (s.ifsm, s.strat, s.rben, s.drainCnt, s.itkn),
    (s.inbuf, s.host, s.pay, s.plen), s.errstat ||| 0x90#8)

theorem sendFrame_busBlind : BusBlind sendFrame := fun _ _ _ _ _ _ => rfl

theorem sendFrame_raiseError (s : State) : sendFrame (raiseError .precondition s) = sendFrame s := by
  simp [sendFrame, BitVec.or_assoc]

theorem sendFrame_recordMismatch (b v : Byte) (s : State) : sendFrame (recordMismatch b v s) = sendFrame s := by
  simp [sendFrame, BitVec.or_assoc]

theorem sendFrame_sampleData (s : State) : sendFrame (sampleData s).2 = sendFrame s := by
  rw [sampleData_state]
  rfl

/-- A step of a send keeps the frame and goes to a step of a send, or returns, or ends. -/
def SendStep (s t : State) : Prop := sendFrame t = sendFrame s ∧ OnlyAdds Label.ofSendCommand s t

theorem SendStep.next {l' : Label} (hframe : sendFrame u = sendFrame s) (hseq : u.seq = s.seq)
    (hl : l'.ofSendCommand = true := by rfl) : SendStep s (goto [l'] u) :=
  ⟨hframe, .goto hseq (List.forall_mem_singleton.2 hl)⟩

theorem SendStep.release (o : Owner) {l' : Label} (hl : l'.ofSendCommand = true) :
    SendStep s (goto [l'] (afterCall (releaseBus o s) s)) :=
  .next (sendFrame_busBlind.afterRelease o) (BusBlind.afterRelease (fun _ _ _ _ _ _ => rfl) o) hl

theorem SendStep.claim (o : Owner) (d : Dir) {l' : Label} (hl : l'.ofSendCommand = true) :
    SendStep s (goto [l'] (afterCall (claimBus o d s) s)) :=
  .next (sendFrame_busBlind.afterClaim o d) (BusBlind.afterClaim (fun _ _ _ _ _ _ => rfl) o d) hl

theorem stepSb1_sendStep (b : Byte) : SendStep s (stepSb1 b s) := by
  unfold stepSb1
  split
  · exact .next rfl rfl
  · exact ⟨sendFrame_raiseError s, .ended rfl⟩

theorem stepSb5_sendStep (b : Byte) : SendStep s (stepSb5 b s) := by
  unfold stepSb5
  split
  · exact .next rfl rfl
  · split <;> exact .next rfl rfl

theorem stepSb7_sendStep (b : Byte) : SendStep s (stepSb7 b s) := by
  unfold stepSb7
  split <;> exact .next rfl rfl

theorem stepSb7f_sendStep (b v : Byte) : SendStep s (stepSb7f b v s) := by
  unfold stepSb7f
  split
  · exact .next rfl rfl
  · exact .next (sendFrame_recordMismatch b v s) rfl

theorem micro_sendStep (hl : l.ofSendCommand = true) (h : micro l s = .next t) : SendStep s t := by
  cases l with
  | sb1 b => cases h; exact stepSb1_sendStep b
  | sb2 b => cases h; exact .next rfl rfl
  | sb3 b => cases h; exact .next rfl rfl
  | sb4 b => cases h; exact .next rfl rfl
  | sb5 b => cases h; exact stepSb5_sendStep b
  | sb6 b => cases h; exact .next rfl rfl
  | sb7 b => cases h; exact stepSb7_sendStep b
  | sb7a b => cases h; exact .release _ rfl
  | sb7b b => cases h; exact .claim _ _ rfl
  | sb7c b => cases h; exact .next (sendFrame_sampleData s) (congrArg (·.2.1) (sampleData_courseFrame s))
  | sb7d b v => cases h; exact .release _ rfl
  | sb7e b v => cases h; exact .claim _ _ rfl
  | sb7f b v => cases h; exact stepSb7f_sendStep b v
  | sb8 => cases h; exact ⟨rfl, .of_seq rfl⟩
  | complete => cases h; exact ⟨rfl, .ended rfl⟩
  | _ => cases hl

/-- A label of the readback (spec 42_handshake.md R143). -/
def Label.ofReadback : Label → Bool
  | .sb7a _ => true
  | .sb7b _ => true
  | .sb7c _ => true
  | .sb7d _ _ => true
  | .sb7e _ _ => true
  | .sb7f _ _ => true
  | _ => false

/-- A label of SENDB or SENDW without readback. -/
def Label.ofPlainSend (l : Label) : Bool := l.ofSendCommand && !l.ofReadback

/-- What only a readback writes: the arbiter, and the mismatch record with bit 4 of `ERRSTAT`. -/
def readbackFrame (s : State) :=
  ((s.owner, s.dir, s.csho, s.cspi), (s.rbsent, s.rbread, s.rbcnt, s.errstat.getLsbD 4))

/-- No readback follows SB6 (spec 42_handshake.md R141, R143). -/
def NoReadback (s : State) : Prop := s.strat = .pulseTimed ∨ s.rben = false

theorem stepSb7_of_noReadback (b : Byte) (h : NoReadback s) : stepSb7 b s = goto [.sb8] s := by
  have hno : ¬ (s.strat = .acknowledged ∧ s.rben = true) := by
    rintro ⟨hstrat, hrben⟩
    rcases h with h | h
    · simp [h] at hstrat
    · simp [h] at hrben
  exact if_neg hno

/-- A step of a send without readback keeps the arbiter and the mismatch record, and no readback comes. -/
def PlainStep (s t : State) : Prop := readbackFrame t = readbackFrame s ∧ OnlyAdds Label.ofPlainSend s t

theorem PlainStep.next {l' : Label} (hframe : readbackFrame u = readbackFrame s) (hseq : u.seq = s.seq)
    (hl : l'.ofPlainSend = true := by rfl) : PlainStep s (goto [l'] u) :=
  ⟨hframe, .goto hseq (List.forall_mem_singleton.2 hl)⟩

theorem stepSb1_plainStep (b : Byte) : PlainStep s (stepSb1 b s) := by
  unfold stepSb1
  split
  · exact .next rfl rfl
  · exact ⟨by simp [readbackFrame], .ended rfl⟩

theorem stepSb5_plainStep (b : Byte) : PlainStep s (stepSb5 b s) := by
  unfold stepSb5
  split
  · exact .next rfl rfl
  · split <;> exact .next rfl rfl

theorem micro_plainStep (hl : l.ofPlainSend = true) (hs : NoReadback s) (h : micro l s = .next t) : PlainStep s t := by
  cases l with
  | sb1 b => cases h; exact stepSb1_plainStep b
  | sb2 b => cases h; exact .next rfl rfl
  | sb3 b => cases h; exact .next rfl rfl
  | sb4 b => cases h; exact .next rfl rfl
  | sb5 b => cases h; exact stepSb5_plainStep b
  | sb6 b => cases h; exact .next rfl rfl
  | sb7 b => cases h; rw [stepSb7_of_noReadback b hs]; exact .next rfl rfl
  | sb8 => cases h; exact ⟨rfl, .of_seq rfl⟩
  | complete => cases h; exact ⟨rfl, .ended rfl⟩
  | _ => cases hl

theorem startLabels_ofPlainSend (hi : (∃ b, i = .sendb b) ∨ (∃ x, i = .sendw x)) :
    ∀ x ∈ startLabels i, x.ofPlainSend = true := by
  rcases hi with ⟨b, rfl⟩ | ⟨x, rfl⟩
  · exact List.forall_mem_cons.2 ⟨rfl, List.forall_mem_singleton.2 rfl⟩
  · exact List.forall_mem_cons.2 ⟨rfl, List.forall_mem_cons.2 ⟨rfl, List.forall_mem_singleton.2 rfl⟩⟩

theorem beforeStart_of_send (hi : (∃ b, i = .sendb b) ∨ (∃ x, i = .sendw x)) (s : State) : beforeStart i s = s := by
  rcases hi with ⟨b, rfl⟩ | ⟨x, rfl⟩ <;> rfl

/-- SENDB and SENDW keep their frame and clear no `RDYEDGE`. -/
theorem exec_sendFrame (hi : (∃ b, i = .sendb b) ∨ (∃ x, i = .sendw x)) (hp : peerOnly s = true)
    (h : exec i s = .next t) : sendFrame t = sendFrame s ∧ (s.rdyEdge = true → t.rdyEdge = true) := by
  refine exec_keeps_at (P := fun u => sendFrame u = sendFrame s ∧ (s.rdyEdge = true → u.rdyEdge = true))
    (L := Label.ofSendCommand) ?_ (fun _ _ hu => hu) ?_ ?_ ?_ hp h
  · rintro u v ⟨hframe, hrdy⟩ ⟨heq, -, hkeeps, -⟩
    exact ⟨by rw [heq]; exact hframe, hkeeps ∘ hrdy⟩
  · rintro l u v hl ⟨hframe, hrdy⟩ huv
    obtain ⟨hkept, hlabels⟩ := micro_sendStep hl huv
    exact ⟨⟨hkept.trans hframe, by rwa [micro_rdyEdge (by rintro rfl; cases hl) huv]⟩, hlabels⟩
  · exact fun x hx => (Bool.and_eq_true_iff.1 (startLabels_ofPlainSend hi x hx)).1
  · rw [beforeStart_of_send hi]
    exact ⟨rfl, id⟩

/-- Without readback SENDB and SENDW keep the arbiter and the mismatch record. -/
theorem exec_readbackFrame (hi : (∃ b, i = .sendb b) ∨ (∃ x, i = .sendw x)) (hp : peerOnly s = true)
    (hno : NoReadback s) (h : exec i s = .next t) : readbackFrame t = readbackFrame s := by
  have hkept : NoReadback t ∧ readbackFrame t = readbackFrame s := by
    refine exec_keeps_at (P := fun u => NoReadback u ∧ readbackFrame u = readbackFrame s)
      (L := Label.ofPlainSend) ?_ (fun _ _ hu => hu) ?_ (startLabels_ofPlainSend hi) ?_ hp h
    · rintro u v hu ⟨heq, -, -, -⟩
      rw [heq]
      exact hu
    · rintro l u v hl ⟨hno, hframe⟩ huv
      obtain ⟨hkept, hlabels⟩ := micro_plainStep hl hno huv
      obtain ⟨hsend, -⟩ := micro_sendStep (Bool.and_eq_true_iff.1 hl).1 huv
      simp only [sendFrame, Prod.mk.injEq] at hsend
      obtain ⟨-, ⟨-, hstrat, hrben, -⟩, -⟩ := hsend
      exact ⟨⟨by rwa [NoReadback, hstrat, hrben], hkept.trans hframe⟩, hlabels⟩
    · rw [beforeStart_of_send hi]
      exact ⟨hno, rfl⟩
  exact hkept.2

theorem readPay_congr (hpay : t.pay = s.pay) (hplen : t.plen = s.plen) (a : Nat) : readPay t a = readPay s a := by
  rw [readPay, readPay, hpay, hplen]

/-- Settles O52: every step of a send keeps the frame, and a send without readback the arbiter and the mismatch record. -/
theorem frameOfTheSends : Obligations.FrameOfTheSends := by
  intro s t i hi hp h
  obtain ⟨hframe, hrdy⟩ := exec_sendFrame hi hp h
  simp only [sendFrame, Prod.mk.injEq] at hframe
  obtain ⟨⟨hdin, hload, hexec, hlen, hidx⟩, ⟨hifsm, hstrat, hrben, hdrain, hitkn⟩, ⟨hinbuf, hhost, hpay, hplen⟩, herr⟩ :=
    hframe
  refine ⟨hdin, hload, hexec, hlen, hidx, hifsm, hstrat, hrben, hdrain, hitkn, hinbuf, hhost, readPay_congr hpay hplen,
    hrdy, herr, fun hno => ?_⟩
  have hplain := exec_readbackFrame hi hp hno h
  simp only [readbackFrame, Prod.mk.injEq] at hplain
  obtain ⟨⟨howner, hdir, hcsho, hcspi⟩, hsent, hread, hcnt, hbit⟩ := hplain
  exact ⟨howner, hdir, hcsho, hcspi, hsent, hread, hcnt, hbit⟩

/-! ### The receives -/

/-- A label of RECVB. -/
def Label.ofRecvb (l : Label) : Bool := l.ofReceive || l = .recv || l = .complete

/-- A label of RECVB or DRAIN. -/
def Label.ofReceiveCommand (l : Label) : Bool :=
  l.ofRecvb || l = .dr1 || l = .dr2 || l = .dr3 || l = .dr4 || l = .dr5 || l = .dr6

/-- What RECVB and DRAIN leave alone; of `ERRSTAT` every bit but 1 and 7. -/
def receiveFrame (s : State) :=
  ((s.dout, s.loadAddr, s.execAddr, s.length, s.idx), (s.ofsm, s.strat, s.rben, s.ordy),
    (s.rbsent, s.rbread, s.rbcnt, s.host, s.pay, s.plen), s.errstat ||| 0x82#8)

theorem receiveFrame_busBlind : BusBlind receiveFrame := fun _ _ _ _ _ _ => rfl

theorem receiveFrame_precondition (s : State) : receiveFrame (raiseError .precondition s) = receiveFrame s := by
  simp [receiveFrame, BitVec.or_assoc]

theorem receiveFrame_contention (s : State) : receiveFrame (raiseError .contention s) = receiveFrame s := by
  simp [receiveFrame, BitVec.or_assoc]

/-- A step of a receive keeps the frame and goes to labels of the kind `L`, or returns, or ends. -/
def ReceiveStep (L : Label → Bool) (s t : State) : Prop := receiveFrame t = receiveFrame s ∧ OnlyAdds L s t

theorem ReceiveStep.next {l' : Label} (hframe : receiveFrame u = receiveFrame s) (hseq : u.seq = s.seq)
    (hl : L l' = true) : ReceiveStep L s (goto [l'] u) :=
  ⟨hframe, .goto hseq (List.forall_mem_singleton.2 hl)⟩

theorem stepRecv_receiveStep : ReceiveStep Label.ofRecvb s (stepRecv s) := by
  unfold stepRecv
  split
  · exact ⟨receiveFrame_precondition s, .ended rfl⟩
  · split
    · exact ⟨receiveFrame_precondition s, .ended rfl⟩
    · exact ⟨rfl, .goto rfl (by decide)⟩

theorem stepRb2_receiveStep : ReceiveStep Label.ofRecvb s (stepRb2 s) := by
  refine .next ?_ (congrArg (·.2.1) (sampleData_courseFrame s)) rfl
  obtain ⟨tr, n, hsample⟩ := exists_sampleData_eq s
  rw [hsample]
  rfl

theorem micro_recvbStep (hl : l.ofRecvb = true) (h : micro l s = .next t) : ReceiveStep Label.ofRecvb s t := by
  cases l with
  | recv => cases h; exact stepRecv_receiveStep
  | rb1 => cases h; exact .next rfl rfl rfl
  | rb2 => cases h; exact stepRb2_receiveStep
  | rb3 => cases h; exact .next rfl rfl rfl
  | rb4 => cases h; exact .next rfl rfl rfl
  | rb5 => cases h; exact .next rfl rfl rfl
  | rb6 => cases h; exact ⟨rfl, .of_seq rfl⟩
  | complete => cases h; exact ⟨rfl, .ended rfl⟩
  | _ => cases hl

theorem OnlyAdds.mono {L' : Label → Bool} (h : OnlyAdds L s t) (hL : ∀ x, L x = true → L' x = true) : OnlyAdds L' s t :=
  fun x hx => (h x hx).imp_right (hL x)

theorem Label.ofReceiveCommand_of_ofRecvb (x : Label) (hx : x.ofRecvb = true) : x.ofReceiveCommand = true := by
  simp [Label.ofReceiveCommand, hx]

theorem stepDr1_receiveStep : ReceiveStep Label.ofReceiveCommand s (stepDr1 s) := by
  unfold stepDr1
  split
  · exact ⟨rfl, .ended rfl⟩
  · exact .next rfl rfl rfl

theorem stepDr2_receiveStep : ReceiveStep Label.ofReceiveCommand s (claimThen .peerInput .input .dr3 s) := by
  refine ⟨receiveFrame_busBlind.claimThen (fun _ _ => rfl) receiveFrame_contention, ?_⟩
  unfold claimThen
  split
  · next u hu => exact .goto (BusBlind.claim (fun _ _ _ _ _ _ => rfl) hu) (by decide)
  · exact .ended rfl

theorem stepDr5_receiveStep : ReceiveStep Label.ofReceiveCommand s (stepDr5 s) := by
  unfold stepDr5
  split <;> exact .next rfl rfl rfl

theorem micro_receiveStep (hl : l.ofReceiveCommand = true) (h : micro l s = .next t) :
    ReceiveStep Label.ofReceiveCommand s t := by
  cases hrecvb : l.ofRecvb with
  | true =>
    obtain ⟨hframe, hlabels⟩ := micro_recvbStep hrecvb h
    exact ⟨hframe, hlabels.mono Label.ofReceiveCommand_of_ofRecvb⟩
  | false =>
    cases l with
    | dr1 => cases h; exact stepDr1_receiveStep
    | dr2 => cases h; exact stepDr2_receiveStep
    | dr3 => cases h; exact ⟨rfl, .goto rfl (by decide)⟩
    | dr4 => cases h; exact .next rfl rfl rfl
    | dr5 => cases h; exact stepDr5_receiveStep
    | dr6 => cases h; exact ⟨receiveFrame_busBlind.afterRelease _, .ended rfl⟩
    | _ => simp [Label.ofReceiveCommand, hrecvb] at hl

/-- RECVB and DRAIN keep their frame and clear no `ACKEDGE`. -/
theorem exec_receiveFrame (hi : i = .recvb ∨ i = .drain) (hp : peerOnly s = true) (h : exec i s = .next t) :
    receiveFrame t = receiveFrame s ∧ (s.ackEdge = true → t.ackEdge = true) := by
  refine exec_keeps_at (P := fun u => receiveFrame u = receiveFrame s ∧ (s.ackEdge = true → u.ackEdge = true))
    (L := Label.ofReceiveCommand) ?_ (fun _ _ hu => hu) ?_ ?_ ?_ hp h
  · rintro u v ⟨hframe, hack⟩ ⟨heq, hkeeps, -, -⟩
    exact ⟨by rw [heq]; exact hframe, hkeeps ∘ hack⟩
  · rintro l u v hl ⟨hframe, hack⟩ huv
    obtain ⟨hkept, hlabels⟩ := micro_receiveStep hl huv
    exact ⟨⟨hkept.trans hframe, by rwa [micro_ackEdge (by rintro b rfl; cases hl) huv]⟩, hlabels⟩
  · rcases hi with rfl | rfl <;> exact List.forall_mem_singleton.2 rfl
  · rcases hi with rfl | rfl <;> exact ⟨rfl, id⟩

/-- The arbiter's registers and `DRAINCNT`, which DRAIN writes and RECVB does not. -/
def drainOwn (s : State) := (s.owner, s.dir, s.csho, s.cspi, s.drainCnt)

theorem stepRb2_drainOwn (s : State) : drainOwn (stepRb2 s) = drainOwn s := by
  obtain ⟨tr, n, hsample⟩ := exists_sampleData_eq s
  simp [stepRb2, hsample, drainOwn]

/-- No step of RECVB calls the arbiter or counts. -/
theorem micro_recvb_drainOwn (hl : l.ofRecvb = true) (h : micro l s = .next t) : drainOwn t = drainOwn s := by
  cases l with
  | recv => cases h; unfold stepRecv; split <;> [rfl; (split <;> rfl)]
  | rb1 => cases h; rfl
  | rb2 => cases h; exact stepRb2_drainOwn s
  | rb3 => cases h; rfl
  | rb4 => cases h; rfl
  | rb5 => cases h; rfl
  | rb6 => cases h; rfl
  | complete => cases h; rfl
  | _ => cases hl

theorem exec_recvb_drainOwn (hp : peerOnly s = true) (h : exec .recvb s = .next t) : drainOwn t = drainOwn s := by
  refine exec_keeps_at (P := fun u => drainOwn u = drainOwn s) (L := Label.ofRecvb) ?_ (fun _ _ hu => hu) ?_ ?_ rfl hp h
  · rintro u v hu ⟨heq, -, -, -⟩
    rw [heq]
    exact hu
  · exact fun l u v hl hu huv => ⟨(micro_recvb_drainOwn hl huv).trans hu, (micro_recvbStep hl huv).2⟩
  · exact List.forall_mem_singleton.2 rfl

/-- Settles O53: every step of a receive keeps the frame, and RECVB has no step that calls the arbiter or counts. -/
theorem frameOfTheReceives : Obligations.FrameOfTheReceives := by
  intro s t i hi hp h
  obtain ⟨hframe, hack⟩ := exec_receiveFrame hi hp h
  simp only [receiveFrame, Prod.mk.injEq] at hframe
  obtain ⟨⟨hdout, hload, hexec, hlen, hidx⟩, ⟨hofsm, hstrat, hrben, hordy⟩, ⟨hsent, hread, hcnt, hhost, hpay, hplen⟩,
    herr⟩ := hframe
  refine ⟨hdout, hload, hexec, hlen, hidx, hofsm, hstrat, hrben, hordy, hsent, hread, hcnt, hhost,
    readPay_congr hpay hplen, herr, hack, fun hrecvb => ?_⟩
  subst hrecvb
  have hown := exec_recvb_drainOwn hp h
  simp only [drainOwn, Prod.mk.injEq] at hown
  exact hown

end Sys2Proof.Machine
end

section
/-! What stands while a byte is offered (spec 42_handshake.md R139), and the two switches of the handshake (R158, R160). -/

namespace Sys2Proof.Machine

variable {l : Label} {s s1 t : State}

/-! ### While the outbound data ready is active -/

theorem not_handshakeIdle_of_ordy (hordy : s.ordy = .active) : ¬ handshakeIdle s = true := by
  simp [handshakeIdle, outboundIdle, hordy]

theorem not_receiving_of_ordy (hordy : s.ordy = .active) (m : Fsm) (v : Level) : ¬ receiving m v s = true := by
  simp [receiving, outboundIdle, hordy]

/-- Under the conditions of its label the outbound data ready is active at SB5 and SB6 only. -/
theorem offering_of_labelOk (hl : labelOk l s = true) (hordy : s.ordy = .active) :
    ∃ b, (l = .sb5 b ∧ offering b .readyAsserted s = true) ∨ (l = .sb6 b ∧ offering b .acknowledged s = true) := by
  have hbusy := not_handshakeIdle_of_ordy hordy
  cases l with
  | sb5 b => exact ⟨b, .inl ⟨rfl, hl⟩⟩
  | sb6 b => exact ⟨b, .inr ⟨rfl, hl⟩⟩
  | illegal => exact absurd hl hbusy
  | stratack => exact absurd hl hbusy
  | setrb v => exact absurd hl hbusy
  | setload x => exact absurd hl hbusy
  | setexec x => exact absurd hl hbusy
  | setlen x => exact absurd hl hbusy
  | take => exact absurd hl hbusy
  | complete => exact absurd hl hbusy
  | recv => exact absurd hl hbusy
  | dl1 => exact absurd hl hbusy
  | di1 => exact absurd hl hbusy
  | dl7 => exact absurd hl hbusy
  | dr1 => exact absurd hl hbusy
  | dr2 => exact absurd hl hbusy
  | _ => simp [hbusy, not_receiving_of_ordy hordy] at hl

/-- Settles O16: the invariant lets data ready be active at SB5 and SB6 only, and says there who holds the bus. -/
theorem dataStandWhileReadyIsActive : Obligations.DataStandWhileReadyIsActive := by
  intro s hs hordy
  obtain ⟨harb, hrunOk, -, -⟩ := invariant_iff.1 hs
  have hrun : s.run = .busy := by
    by_contra hrun
    exact not_handshakeIdle_of_ordy hordy (runOk_handshakeIdle hrunOk hrun)
  obtain ⟨l, rest, hseq⟩ : ∃ l rest, s.seq = l :: rest := by
    cases hseq : s.seq with
    | nil => simp [runOk, hrun, seqOk, hseq] at hrunOk
    | cons l rest => exact ⟨l, rest, rfl⟩
  obtain ⟨b, hoffer⟩ := offering_of_labelOk (s := { s with seq := rest }) (atLabel_of_runOk hrun hseq hrunOk).label hordy
  have hheld : s.owner = .hostOutput ∧ s.dout = b := by
    rcases hoffer with ⟨-, h⟩ | ⟨-, h⟩ <;> exact (offering_iff.1 h).1.1.1
  obtain ⟨howner, hdout⟩ := hheld
  obtain ⟨⟨hdir, hcsho⟩, hcspi⟩ := (arbiterOk_hostOutput howner).1 harb
  refine ⟨hrun, howner, hdir, hcsho, hcspi, by simp [dataLines, hdir], b, rest, hdout, ?_⟩
  rcases hoffer with ⟨rfl, -⟩ | ⟨rfl, -⟩
  · exact .inl hseq
  · exact .inr hseq

/-! ### The switches -/

/-- Settles O21: the micro-step is the write itself. -/
theorem readbackSwitchCommand : Obligations.ReadbackSwitchCommand := by
  intro s v hready hp
  obtain ⟨s1, hs1, -⟩ := exists_letEnvAct_owner hp
  exact ⟨s1, hs1, exec_of_micro rfl rfl (Bool.and_false _) hready hp hs1 rfl nofun⟩

theorem micro_stratack (s : State) : micro .stratack s = .next
    (if s.strat = .acknowledged then raiseError .precondition s else complete { s with strat := .acknowledged }) := rfl

theorem letEnvAct_strat (hp : peerOnly s = true) (h : letEnvAct s = .next s1) : s1.strat = s.strat := by
  rw [(peerTouchesOnlyItsOwnState s s1 hp h).1]

/-- Settles O22: the micro-step tests the strategy, which the peer leaves alone. -/
theorem strategySwitchCommand : Obligations.StrategySwitchCommand := by
  intro s hready hp
  obtain ⟨s1, hs1, -⟩ := exists_letEnvAct_owner hp
  refine ⟨s1, hs1, ?_⟩
  rw [← letEnvAct_strat hp hs1]
  refine ⟨fun hstrat => ?_, fun hstrat => ?_⟩ <;>
    refine exec_of_micro (l := .stratack) rfl rfl (Bool.and_false _) hready hp hs1 ?_ nofun <;>
    rw [micro_stratack, accept_strat]
  · rw [if_neg (by simp [hstrat])]
    rfl
  · rw [if_pos hstrat]
    rfl

end Sys2Proof.Machine
end

section
/-! A command as its turns, one after another, and the peer beside it: what the peer has done by a turn is what it does when
left alone (spec 00_scope.md R9; 42_handshake.md R131). -/

namespace Sys2Proof.Machine

variable {l : Label} {s t u p q e e' : State} {i : Instr}

/-! ### Turns -/

/-- One turn of a command that goes on: it has not ended, is not left to the environment, nobody looks. -/
structure Turn (s t : State) : Prop where
  run : s.run = .busy
  left : leftToEnv s = false
  look : hostLooks s = false
  step : microStep s = .next t

/-- Any number of turns. -/
abbrev Turns : State → State → Prop := Relation.ReflTransGen Turn

/-- A run stops where nothing more happens: the command has ended or is left to the environment. -/
def Stopped (s : State) : Prop := s.run ≠ .busy ∨ leftToEnv s = true

theorem Stopped.runFor (h : Stopped s) (k : Nat) : runFor k s = .next s := h.elim runFor_ended runFor_left

/-- A run reaches the state at which its turns stop, or its bound comes first. -/
theorem exists_runFor_of_turns (h : Turns s t) (ht : Stopped t) (k : Nat) :
    ∃ u, runFor k s = .next u ∧ (u = t ∨ (u.run = .busy ∧ leftToEnv u = false)) := by
  induction h using Relation.ReflTransGen.head_induction_on generalizing k with
  | refl => exact ⟨t, ht.runFor k, .inl rfl⟩
  | head hturn _ ih =>
    cases k with
    | zero => exact ⟨_, rfl, .inr ⟨hturn.run, hturn.left⟩⟩
    | succ k => rw [runFor_turn hturn.run hturn.left hturn.look hturn.step]; exact ih k

theorem leftToEnv_of_awaits (henv : s.env = []) (h : Awaits s) : leftToEnv s = true := by
  obtain ⟨l, rest, hseq, hawaits⟩ := h
  cases l with
  | sb5 b => simp [leftToEnv, henv, hseq, hawaits.1, hawaits.2]
  | dr5 => simpa [leftToEnv, henv, hseq] using show s.irdy = .active from hawaits
  | _ => exact hawaits.elim

theorem Settled.stopped (h : Settled t) : Stopped t := by
  rcases h with hrun | ⟨-, henv, hawaits⟩
  · exact .inl (by simp [hrun])
  · exact .inr (leftToEnv_of_awaits henv hawaits)

/-- A command answers the state at which its turns stop: its bound is never the reason it stops (log 3). -/
theorem exec_of_turns (hready : s.run = .ready) (hp : peerOnly s = true)
    (h : Turns (accept (encode i) (startLabels i) (beforeStart i s)) t) (ht : Stopped t) : exec i s = .next t := by
  have hpeer : peerOnly (beforeStart i s) = true := by rwa [peerOnly, beforeStart_env]
  have hrun : runCommand (encode i) (startLabels i) (beforeStart i s) =
      runFor (turnsFor (beforeStart i s)) (accept (encode i) (startLabels i) (beforeStart i s)) :=
    if_pos (by rwa [beforeStart_run])
  obtain ⟨u, hu, hcases⟩ := exists_runFor_of_turns h ht (turnsFor (beforeStart i s))
  have hsettled : Settled u := runCommand_settled (encode i) i hpeer (hrun.trans hu)
  rw [exec_eq, hrun, hu]
  rcases hcases with rfl | ⟨hbusy, hleft⟩
  · rfl
  · rcases hsettled.stopped with h | h
    · exact absurd hbusy h
    · rw [hleft] at h; cases h

/-! ### The peer left alone -/

theorem exists_letEnvAct (hp : peerOnly p = true) : ∃ t, letEnvAct p = .next t := by
  obtain ⟨t, ht, -⟩ := letEnvAct_peerBlind (peerBlind_accept 0#32 []) hp
  exact ⟨t, ht⟩

theorem letEnvAct_eq_peerAfter (hp : peerOnly p = true) : letEnvAct p = .next (peerAfter 1 p) := by
  obtain ⟨t, ht⟩ := exists_letEnvAct hp
  rw [peerAfter_succ ht, ht, peerAfter_zero]

/-- The events due before the coming micro-step. -/
def due (p : State) : List Event := p.env.headD []

theorem due_ofPeer (hp : peerOnly p = true) : (due p).all Event.ofPeer = true := by
  unfold due
  rw [peerOnly] at hp
  cases henv : p.env with
  | nil => rfl
  | cons es rest =>
    rw [henv, List.all_cons, Bool.and_eq_true] at hp
    exact hp.1

theorem letEnvAct_eq_due (p : State) : letEnvAct p = applyEvents (due p) { p with env := p.env.tail } := by
  unfold letEnvAct due
  cases henv : p.env with
  | nil => change Host.Outcome.next p = .next { p with env := [] }; rw [← henv]
  | cons es rest => rfl

theorem peerAfter_acted (n : Nat) (hp : peerOnly p = true) :
    OnlyPeerActed p (peerAfter n p) ∧ peerOnly (peerAfter n p) = true := by
  induction n generalizing p with
  | zero => exact ⟨.refl p, hp⟩
  | succ n ih =>
    obtain ⟨t, ht⟩ := exists_letEnvAct hp
    obtain ⟨heq, hack, hrdy, htr, henv⟩ := peerTouchesOnlyItsOwnState p t hp ht
    obtain ⟨hacted, hpeer⟩ := ih (peerOnly_of_env_tail henv hp)
    rw [peerAfter_succ ht]
    exact ⟨OnlyPeerActed.trans ⟨heq, hack, hrdy, htr⟩ hacted, hpeer⟩

@[simp] theorem peerOnly_emit (ev : TraceEvent) (p : State) : peerOnly (emit ev p) = peerOnly p := rfl

theorem peerOnly_peerAfter (n : Nat) (hp : peerOnly p = true) : peerOnly (peerAfter n p) = true :=
  (peerAfter_acted n hp).2

@[simp] theorem engineTrace_append (tr tr' : List TraceEvent) :
    engineTrace (tr ++ tr') = engineTrace tr ++ engineTrace tr' := List.filter_append ..

theorem engineTrace_peerAfter (n : Nat) (hp : peerOnly p = true) :
    engineTrace (peerAfter n p).trace = engineTrace p.trace := (peerAfter_acted n hp).1.2.2.2

theorem peerAfter_env (n : Nat) (hp : peerOnly p = true) : (peerAfter n p).env = p.env.drop n := by
  induction n generalizing p with
  | zero => rfl
  | succ n ih =>
    obtain ⟨t, ht⟩ := exists_letEnvAct hp
    have henv := letEnvAct_env ht
    rw [peerAfter_succ ht, ih (peerOnly_of_env_tail henv hp), henv, List.drop_tail]

theorem peerAfter_one_lines (hp : peerOnly p = true) :
    (peerAfter 1 p).otkn = levelAfter .otkn p.otkn (due p) ∧ (peerAfter 1 p).irdy = levelAfter .irdy p.irdy (due p)
      ∧ (peerAfter 1 p).ackEdge = (p.ackEdge || risesIn .otkn p.otkn (due p))
      ∧ (peerAfter 1 p).rdyEdge = (p.rdyEdge || risesIn .irdy p.irdy (due p)) :=
  applyEvents_lines (s := { p with env := p.env.tail }) (due_ofPeer hp)
    ((letEnvAct_eq_due p).symm.trans (letEnvAct_eq_peerAfter hp))

/-- After `n` boundaries `RDYEDGE` tells whether `IRDY` rose at one of them (spec 42_handshake.md R133). -/
theorem peerAfter_rdyEdge (n : Nat) (hp : peerOnly p = true) :
    (peerAfter n p).rdyEdge = (p.rdyEdge || risesIn .irdy p.irdy (p.env.take n).flatten) := by
  induction n generalizing p with
  | zero => simp [risesIn]
  | succ n ih =>
    obtain ⟨-, hirdy, -, hrdy⟩ := peerAfter_one_lines hp
    rw [Nat.add_comm, peerAfter_add, ih (peerOnly_peerAfter 1 hp), hrdy, hirdy, peerAfter_env 1 hp, Bool.or_assoc,
      ← risesIn_append]
    cases henv : p.env <;> simp [due, henv, Nat.add_comm 1 n]

/-! ### The same peer beside another engine -/

/-- The peer stands in `t` as in `s`, with the same to come. -/
def SamePeer (s t : State) : Prop := t.otkn = s.otkn ∧ t.irdy = s.irdy ∧ t.pdata = s.pdata ∧ t.env = s.env

/-- The engine of `e` beside the peer of `p`: what the peer moves is as in `p`, the rest as in `e`. -/
def beside (p e : State) : State :=
  { e with otkn := p.otkn, irdy := p.irdy, pdata := p.pdata, env := p.env, ackEdge := p.ackEdge, rdyEdge := p.rdyEdge,
           trace := p.trace }

theorem peerBlind_beside (e : State) : PeerBlind fun p => beside p e := by
  refine ⟨fun _ _ => rfl, fun _ => rfl, fun ev s t he h => ?_⟩
  cases ev with
  | otkn v =>
    cases h
    by_cases hv : s.otkn = v <;> simp [applyEvent, driveOtkn, hv, beside, emit]
  | irdy v =>
    cases h
    by_cases hv : s.irdy = v <;> simp [applyEvent, driveIrdy, hv, beside, emit]
  | pdata b => cases h; rfl
  | heartbeat => cases h; rfl
  | _ => cases he

theorem letEnvAct_beside (e : State) (hp : peerOnly p = true) :
    letEnvAct (beside p e) = .next (beside (peerAfter 1 p) e) := by
  obtain ⟨t, ht, hbeside⟩ := letEnvAct_peerBlind (peerBlind_beside e) hp
  rw [letEnvAct_eq_peerAfter hp] at ht
  cases ht
  exact hbeside

theorem SamePeer.trans (h : SamePeer s t) (h' : SamePeer t u) : SamePeer s u := by
  obtain ⟨hotkn, hirdy, hpdata, henv⟩ := h
  obtain ⟨hotkn', hirdy', hpdata', henv'⟩ := h'
  exact ⟨hotkn'.trans hotkn, hirdy'.trans hirdy, hpdata'.trans hpdata, henv'.trans henv⟩

theorem SamePeer.peerOnly (h : SamePeer p q) (hp : peerOnly p = true) : peerOnly q = true := by
  obtain ⟨-, -, -, henv⟩ := h
  rwa [Machine.peerOnly, henv]

theorem applyEvents_samePeer {es : List Event} (hes : es.all Event.ofPeer = true) (h : SamePeer p q)
    (hp : applyEvents es p = .next s) (hq : applyEvents es q = .next t) : SamePeer s t := by
  induction es generalizing p q with
  | nil => cases hp; cases hq; exact h
  | cons e es ih =>
    rw [List.all_cons, Bool.and_eq_true] at hes
    obtain ⟨p', hp', hprest⟩ := andThen_eq_next.1 hp
    obtain ⟨q', hq', hqrest⟩ := andThen_eq_next.1 hq
    refine ih hes.2 ?_ hprest hqrest
    obtain ⟨hotkn, hirdy, hpdata, henv⟩ := h
    cases e with
    | otkn v =>
      cases hp'; cases hq'
      unfold driveOtkn
      rw [hotkn]
      split
      · exact ⟨hotkn, hirdy, hpdata, henv⟩
      · exact ⟨rfl, hirdy, hpdata, henv⟩
    | irdy v =>
      cases hp'; cases hq'
      unfold driveIrdy
      rw [hirdy]
      split
      · exact ⟨hotkn, hirdy, hpdata, henv⟩
      · exact ⟨hotkn, rfl, hpdata, henv⟩
    | pdata b => cases hp'; cases hq'; exact ⟨hotkn, hirdy, rfl, henv⟩
    | heartbeat => cases hp'; cases hq'; exact ⟨hotkn, hirdy, hpdata, henv⟩
    | _ => simp [Event.ofPeer] at hes

/-- Left alone for as long, the same peer stands the same. -/
theorem SamePeer.peerAfter (h : SamePeer p q) (hp : Machine.peerOnly p = true) (n : Nat) :
    SamePeer (peerAfter n p) (peerAfter n q) := by
  induction n generalizing p q with
  | zero => exact h
  | succ n ih =>
    have hq := h.peerOnly hp
    have hone : SamePeer (Machine.peerAfter 1 p) (Machine.peerAfter 1 q) := by
      have hstart : SamePeer { p with env := p.env.tail } { q with env := q.env.tail } :=
        ⟨h.1, h.2.1, h.2.2.1, congrArg List.tail h.2.2.2⟩
      have hdue : due q = due p := congrArg (·.headD []) h.2.2.2
      refine applyEvents_samePeer (due_ofPeer hp) hstart
        ((letEnvAct_eq_due p).symm.trans (letEnvAct_eq_peerAfter hp)) ?_
      rw [← hdue]
      exact (letEnvAct_eq_due q).symm.trans (letEnvAct_eq_peerAfter hq)
    rw [Nat.add_comm, peerAfter_add, peerAfter_add]
    exact ih hone (peerOnly_peerAfter 1 hp)

/-! ### One turn beside the peer -/

/-- A label at which no command awaits the peer. -/
def Label.neverWaits : Label → Bool
  | .sb5 _ => false
  | .dr5 => false
  | _ => true

theorem leftToEnv_of_neverWaits {rest : List Label} (hl : l.neverWaits = true) (hseq : s.seq = l :: rest) :
    leftToEnv s = false := by
  unfold leftToEnv
  rw [hseq]
  cases l with
  | sb5 b => cases hl
  | dr5 => cases hl
  | _ => exact Bool.and_false _

/-- One turn: the peer acts for one boundary, then the micro-step at the label is taken. -/
theorem Turns.one {rest : List Label} (hp : peerOnly p = true) (hrun : e.run = .busy) (hseq : e.seq = l :: rest)
    (hleft : leftToEnv (beside p e) = false) (hmicro : micro l (beside (peerAfter 1 p) { e with seq := rest }) = .next t) :
    Turns (beside p e) t := by
  refine .single ⟨hrun, hleft, hostLooks_peerOnly hp, ?_⟩
  rw [microStep_of_letEnvAct (letEnvAct_beside e hp)]
  exact (engineTurn_at (s := beside (peerAfter 1 p) e) hrun hseq).trans hmicro

/-- The same at a label that is no wait. -/
theorem Turns.step {rest : List Label} (hp : peerOnly p = true) (hrun : e.run = .busy) (hseq : e.seq = l :: rest)
    (hmicro : micro l (beside (peerAfter 1 p) { e with seq := rest }) = .next t)
    (hl : l.neverWaits = true := by rfl) : Turns (beside p e) t :=
  .one hp hrun hseq (leftToEnv_of_neverWaits hl hseq) hmicro

/-- A command whose last procedure has returned ends one turn later, with `Complete()` (spec 60_exceptions.md R201). -/
theorem exec_of_returned (hi : beforeStart i s = s) (hready : s.run = .ready) (hp : peerOnly s = true)
    (hq : peerOnly q = true) (hrun : e.run = .busy) (hseq : e.seq = [.complete])
    (h : Turns (beside s (accept (encode i) (startLabels i) s)) (beside q e)) :
    exec i s = .next (beside (peerAfter 1 q) (complete e)) := by
  have hcomplete : Turns (beside q e) (beside (peerAfter 1 q) (complete e)) := .step hq hrun hseq rfl
  refine exec_of_turns hready hp ?_ (.inl nofun)
  rw [hi]
  exact h.trans hcomplete

end Sys2Proof.Machine
end

section
/-! `SendByte` turn by turn (spec 42_handshake.md R138), whatever the peer does: what the engine drives and how long it waits,
under both strategies (R140, R141). -/

namespace Sys2Proof.Machine

variable {s t u p e : State} {b : Byte} {rest : List Label} {m r : Nat}

/-! ### When the edge comes -/

theorem peerAfter_one_ackEdge (hp : peerOnly p = true) :
    (peerAfter 1 p).ackEdge = (p.ackEdge || risesIn .otkn p.otkn (due p)) := (peerAfter_one_lines hp).2.2.1

theorem ackEdge_peerAfter (n : Nat) (hp : peerOnly p = true) (h : p.ackEdge = true) : (peerAfter n p).ackEdge = true :=
  (peerAfter_acted n hp).1.2.1 h

/-- Before which coming micro-step, counted from 0, `OTKN` first rises; none if it never does. -/
def edgeTurn (p : State) : Option Nat := firstRise .otkn p.otkn p.env

/-- `OTKN` first rises at the coming boundary, or at a later one as seen from it. -/
theorem edgeTurn_eq (hp : peerOnly p = true) (henv : p.env ≠ []) :
    edgeTurn p = if risesIn .otkn p.otkn (due p) then some 0 else (edgeTurn (peerAfter 1 p)).map (· + 1) := by
  obtain ⟨es, rest, hcons⟩ := List.exists_cons_of_ne_nil henv
  rw [edgeTurn, edgeTurn, (peerAfter_one_lines hp).1, peerAfter_env 1 hp]
  simp [firstRise, due, hcons]

theorem edgeTurn_nil (henv : p.env = []) : edgeTurn p = none := by simp [edgeTurn, henv]

/-- The edge comes at the coming boundary: the latch is set there. -/
theorem ackEdge_of_edgeTurn_zero (hp : peerOnly p = true) (h : edgeTurn p = some 0) : (peerAfter 1 p).ackEdge = true := by
  have henv : p.env ≠ [] := fun henv => by simp [edgeTurn_nil henv] at h
  rw [edgeTurn_eq hp henv] at h
  rw [peerAfter_one_ackEdge hp]
  split at h
  · next hrise => rw [hrise, Bool.or_true]
  · simp at h

/-- The edge comes later: the armed latch stands, and the edge is one turn nearer. -/
theorem edgeTurn_succ (hp : peerOnly p = true) (harmed : p.ackEdge = false) (h : edgeTurn p = some (r + 1)) :
    p.env ≠ [] ∧ (peerAfter 1 p).ackEdge = false ∧ edgeTurn (peerAfter 1 p) = some r := by
  have henv : p.env ≠ [] := fun henv => by simp [edgeTurn_nil henv] at h
  rw [edgeTurn_eq hp henv] at h
  rw [peerAfter_one_ackEdge hp, harmed]
  split at h
  · cases h
  · next hno => exact ⟨henv, by simpa using hno, by simpa using h⟩

/-- The edge never comes: the armed latch stands. -/
theorem edgeTurn_none (hp : peerOnly p = true) (harmed : p.ackEdge = false) (h : edgeTurn p = none) :
    (peerAfter 1 p).ackEdge = false ∧ edgeTurn (peerAfter 1 p) = none := by
  by_cases henv : p.env = []
  · rw [peerAfter_nil henv]
    exact ⟨harmed, h⟩
  · rw [edgeTurn_eq hp henv] at h
    rw [peerAfter_one_ackEdge hp, harmed]
    split at h
    · cases h
    · next hno => exact ⟨by simpa using hno, by simpa using h⟩

/-! ### SB1 to SB4 -/

/-- What stands beside the engine when `SendByte(b)` called beside `p` comes to SB4, the detector armed at SB3 (R132). -/
def peerArmed (b : Byte) (p : State) : State :=
  { peerAfter 1 (emit (.drove b) (peerAfter 2 p)) with ackEdge := false }

theorem peerOnly_peerArmed (b : Byte) (hp : peerOnly p = true) : peerOnly (peerArmed b p) = true :=
  peerOnly_peerAfter 1 (p := emit (.drove b) (peerAfter 2 p)) (peerOnly_peerAfter 2 hp)

theorem turns_sb1 (hp : peerOnly p = true) (hrun : e.run = .busy) (hseq : e.seq = .sb1 b :: rest)
    (howner : e.owner = .hostOutput) (hdir : e.dir = .output) :
    Turns (beside p e) (beside (peerArmed b p) { e with dout := b, seq := .sb4 b :: rest }) := by
  have hsb1 : Turns (beside p e) (beside (peerAfter 1 p) { e with seq := .sb2 b :: rest }) :=
    .step hp hrun hseq (congrArg _ (if_pos ⟨howner, hdir⟩))
  have hsb2 : Turns (beside (peerAfter 1 p) { e with seq := .sb2 b :: rest })
      (beside (emit (.drove b) (peerAfter 2 p)) { e with dout := b, seq := .sb3 b :: rest }) := by
    rw [peerAfter_add 1 1 p]
    exact .step (peerOnly_peerAfter 1 hp) hrun rfl rfl
  have hsb3 : Turns (beside (emit (.drove b) (peerAfter 2 p)) { e with dout := b, seq := .sb3 b :: rest })
      (beside (peerArmed b p) { e with dout := b, seq := .sb4 b :: rest }) :=
    .step (p := emit (.drove b) (peerAfter 2 p)) (peerOnly_peerAfter 2 hp) hrun rfl rfl
  exact hsb1.trans (hsb2.trans hsb3)

/-- What stands beside the engine after SB4 (R135). -/
def peerOffered (p : State) : State := emit (.asserted .ordy) (peerAfter 1 p)

theorem peerOnly_peerOffered (hp : peerOnly p = true) : peerOnly (peerOffered p) = true := peerOnly_peerAfter 1 hp

theorem turns_sb4 (hp : peerOnly p = true) (hrun : e.run = .busy) (hseq : e.seq = .sb4 b :: rest) :
    Turns (beside p e)
      (beside (peerOffered p) { e with ordy := .active, ofsm := .readyAsserted, seq := .sb5 b :: rest }) :=
  .step hp hrun hseq rfl

/-! ### The wait at SB5 -/

theorem micro_sb5_timed (h : s.strat = .pulseTimed) :
    micro (.sb5 b) s = .next (goto [.sb6 b] { s with ofsm := .acknowledged }) := by
  simp [micro, stepSb5, h]

theorem micro_sb5_edge (h : s.ackEdge = true) :
    micro (.sb5 b) s = .next (goto [.sb6 b] { s with ofsm := .acknowledged }) := by
  cases hstrat : s.strat <;> simp [micro, stepSb5, h, hstrat]

theorem micro_sb5_wait (hstrat : s.strat = .acknowledged) (h : s.ackEdge = false) :
    micro (.sb5 b) s = .next (goto [.sb5 b] s) := by
  simp [micro, stepSb5, h, hstrat]

theorem turns_sb5_timed (hp : peerOnly p = true) (hrun : e.run = .busy) (hseq : e.seq = .sb5 b :: rest)
    (hstrat : e.strat = .pulseTimed) :
    Turns (beside p e) (beside (peerAfter 1 p) { e with ofsm := .acknowledged, seq := .sb6 b :: rest }) :=
  .one hp hrun hseq (by simp [leftToEnv, beside, hseq, hstrat]) (micro_sb5_timed hstrat)

/-- The edge is latched by the coming boundary at the latest: the wait ends with this turn (R140). -/
theorem turns_sb5_edge (hp : peerOnly p = true) (hrun : e.run = .busy) (hseq : e.seq = .sb5 b :: rest)
    (hedge : (peerAfter 1 p).ackEdge = true) :
    Turns (beside p e) (beside (peerAfter 1 p) { e with ofsm := .acknowledged, seq := .sb6 b :: rest }) := by
  refine .one hp hrun hseq ?_ (micro_sb5_edge hedge)
  by_cases henv : p.env = []
  · rw [peerAfter_nil henv] at hedge
    simp [leftToEnv, beside, hseq, hedge]
  · simp [leftToEnv, beside, henv]

/-- No edge yet, and events to come: the engine waits at SB5. -/
theorem turns_sb5_wait (hp : peerOnly p = true) (hrun : e.run = .busy) (hseq : e.seq = .sb5 b :: rest)
    (hstrat : e.strat = .acknowledged) (henv : p.env ≠ []) (hedge : (peerAfter 1 p).ackEdge = false) :
    Turns (beside p e) (beside (peerAfter 1 p) e) := by
  refine .one hp hrun hseq (by simp [leftToEnv, beside, henv]) ?_
  rw [micro_sb5_wait (s := beside (peerAfter 1 p) { e with seq := rest }) hstrat hedge]
  change Host.Outcome.next (beside (peerAfter 1 p) { e with seq := .sb5 b :: rest }) = _
  rw [← hseq]

/-- `OTKN` rises at the `r`-th boundary of the wait: SB5 goes on with that turn (R140). -/
theorem turns_sb5_rise (hp : peerOnly p = true) (hrun : e.run = .busy) (hseq : e.seq = .sb5 b :: rest)
    (hstrat : e.strat = .acknowledged) (harmed : p.ackEdge = false) (hrise : edgeTurn p = some r) :
    Turns (beside p e) (beside (peerAfter (r + 1) p) { e with ofsm := .acknowledged, seq := .sb6 b :: rest })
      ∧ (peerAfter (r + 1) p).ackEdge = true := by
  induction r generalizing p with
  | zero =>
    have hedge := ackEdge_of_edgeTurn_zero hp hrise
    exact ⟨turns_sb5_edge hp hrun hseq hedge, hedge⟩
  | succ r ih =>
    obtain ⟨henv, hstill, hnext⟩ := edgeTurn_succ hp harmed hrise
    obtain ⟨hturns, hedge⟩ := ih (peerOnly_peerAfter 1 hp) hstill hnext
    rw [Nat.add_comm (r + 1) 1, peerAfter_add]
    exact ⟨(turns_sb5_wait hp hrun hseq hstrat henv hstill).trans hturns, hedge⟩

/-- `OTKN` never rises: once the peer is done the engine stands at SB5 (R140). -/
theorem turns_sb5_never (hp : peerOnly p = true) (hrun : e.run = .busy) (hseq : e.seq = .sb5 b :: rest)
    (hstrat : e.strat = .acknowledged) (harmed : p.ackEdge = false) (hnever : edgeTurn p = none) :
    ∃ q, Turns (beside p e) (beside q e) ∧ q.env = [] ∧ q.ackEdge = false := by
  induction hlen : p.env.length generalizing p with
  | zero => exact ⟨p, .refl, List.length_eq_zero_iff.1 hlen, harmed⟩
  | succ n ih =>
    have henv : p.env ≠ [] := List.length_pos_iff.1 (by omega)
    obtain ⟨hstill, hnext⟩ := edgeTurn_none hp harmed hnever
    obtain ⟨q, hturns, hq⟩ := ih (peerOnly_peerAfter 1 hp) hstill hnext
      (by rw [peerAfter_env 1 hp, List.length_drop]; omega)
    exact ⟨q, (turns_sb5_wait hp hrun hseq hstrat henv hstill).trans hturns, hq⟩

/-- From SB4 to SB6 under `Acknowledged`, `OTKN` rising at the `r`-th boundary from SB4's on: the wait takes `max 1 r` turns,
one if the edge came before SB4. -/
theorem turns_sb4_rise (hp : peerOnly p = true) (hrun : e.run = .busy) (hseq : e.seq = .sb4 b :: rest)
    (hstrat : e.strat = .acknowledged) (harmed : p.ackEdge = false) (hrise : edgeTurn p = some r) :
    Turns (beside p e) (beside (peerAfter (max 1 r) (peerOffered p))
        { e with ordy := .active, ofsm := .acknowledged, seq := .sb6 b :: rest })
      ∧ (peerAfter (max 1 r) (peerOffered p)).ackEdge = true := by
  have hsb4 := turns_sb4 hp hrun hseq
  have hoffered := peerOnly_peerOffered hp
  cases r with
  | zero =>
    have hedge := ackEdge_peerAfter 1 hoffered (ackEdge_of_edgeTurn_zero hp hrise)
    exact ⟨hsb4.trans (turns_sb5_edge hoffered hrun rfl hedge), hedge⟩
  | succ r =>
    obtain ⟨-, hstill, hnext⟩ := edgeTurn_succ hp harmed hrise
    obtain ⟨hwait, hedge⟩ := turns_sb5_rise (p := peerOffered p)
      (e := { e with ordy := .active, ofsm := .readyAsserted, seq := .sb5 b :: rest }) hoffered hrun rfl hstrat hstill hnext
    rw [max_eq_right (Nat.le_add_left 1 r)]
    exact ⟨hsb4.trans hwait, hedge⟩

/-- From SB4 on without an edge: once the peer is done the engine stands at SB5. -/
theorem turns_sb4_never (hp : peerOnly p = true) (hrun : e.run = .busy) (hseq : e.seq = .sb4 b :: rest)
    (hstrat : e.strat = .acknowledged) (harmed : p.ackEdge = false) (hnever : edgeTurn p = none) :
    ∃ q, Turns (beside p e) (beside q { e with ordy := .active, ofsm := .readyAsserted, seq := .sb5 b :: rest })
      ∧ q.env = [] ∧ q.ackEdge = false := by
  obtain ⟨hstill, hnext⟩ := edgeTurn_none hp harmed hnever
  obtain ⟨q, hwait, hq⟩ := turns_sb5_never (p := peerOffered p)
    (e := { e with ordy := .active, ofsm := .readyAsserted, seq := .sb5 b :: rest }) (peerOnly_peerOffered hp) hrun rfl
    hstrat hstill hnext
  exact ⟨q, (turns_sb4 hp hrun hseq).trans hwait, hq⟩

/-! ### SB6 to SB8 without readback -/

theorem turns_sb6 (hp : peerOnly p = true) (hrun : e.run = .busy) (hseq : e.seq = .sb6 b :: rest) :
    Turns (beside p e) (beside (emit (.deasserted .ordy) (peerAfter 1 p))
      { e with ordy := .inactive, ofsm := .idle, seq := .sb7 b :: rest }) :=
  .step hp hrun hseq rfl

theorem turns_sb7_plain (hp : peerOnly p = true) (hrun : e.run = .busy) (hseq : e.seq = .sb7 b :: rest)
    (hno : NoReadback e) : Turns (beside p e) (beside (peerAfter 2 p) { e with seq := rest }) := by
  have hsb7 : Turns (beside p e) (beside (peerAfter 1 p) { e with seq := .sb8 :: rest }) :=
    .step hp hrun hseq (congrArg Host.Outcome.next
      (stepSb7_of_noReadback (s := beside (peerAfter 1 p) { e with seq := rest }) b hno))
  have hsb8 : Turns (beside (peerAfter 1 p) { e with seq := .sb8 :: rest })
      (beside (peerAfter 2 p) { e with seq := rest }) := by
    rw [peerAfter_add 1 1 p]
    exact .step (peerOnly_peerAfter 1 hp) hrun rfl rfl
  exact hsb7.trans hsb8

/-! ### The whole of `SendByte` without readback -/

/-- What stands beside the engine when data ready has been taken back at SB6, the wait having taken `m` turns. -/
def peerTaken (b : Byte) (m : Nat) (p : State) : State :=
  emit (.deasserted .ordy) (peerAfter 1 (peerAfter m (peerOffered (peerArmed b p))))

theorem peerOnly_peerTaken (b : Byte) (m : Nat) (hp : peerOnly p = true) : peerOnly (peerTaken b m p) = true :=
  peerOnly_peerAfter 1 (peerOnly_peerAfter m (peerOnly_peerOffered (peerOnly_peerArmed b hp)))

/-- The engine after `SendByte(b)`, `rest` being the labels it returns to. -/
def sent (b : Byte) (rest : List Label) (e : State) : State :=
  { e with dout := b, ordy := .inactive, ofsm := .idle, seq := rest }

/-- Where, counted from SB4, the edge comes for a `SendByte` whose SB1 comes next: `afterSend` is read off it. -/
def ackTurn (p : State) : Option Nat := edgeTurn (peerAfter 3 p)

theorem afterSend_eq (p : State) : afterSend p = (ackTurn p).map fun r => peerAfter (7 + max 1 r) p := rfl

theorem samePeer_peerArmed (b : Byte) (hp : peerOnly p = true) : SamePeer (peerAfter 3 p) (peerArmed b p) := by
  have h : SamePeer (peerAfter 2 p) (emit (.drove b) (peerAfter 2 p)) := ⟨rfl, rfl, rfl, rfl⟩
  rw [peerAfter_add 2 1 p]
  exact h.peerAfter (peerOnly_peerAfter 2 hp) 1

theorem edgeTurn_peerArmed (b : Byte) (hp : peerOnly p = true) : edgeTurn (peerArmed b p) = ackTurn p := by
  obtain ⟨hotkn, -, -, henv⟩ := samePeer_peerArmed b hp
  rw [edgeTurn, hotkn, henv, ackTurn, edgeTurn]

theorem turns_taken_timed (hp : peerOnly p = true) (hrun : e.run = .busy) (hseq : e.seq = .sb1 b :: rest)
    (howner : e.owner = .hostOutput) (hdir : e.dir = .output) (hstrat : e.strat = .pulseTimed) :
    Turns (beside p e) (beside (peerTaken b 1 p) (sent b (.sb7 b :: rest) e)) := by
  have harmed := peerOnly_peerArmed b hp
  have hoffered := peerOnly_peerOffered harmed
  have hsb4 := turns_sb4 (e := { e with dout := b, seq := .sb4 b :: rest }) harmed hrun rfl
  have hsb5 := turns_sb5_timed (e := { e with dout := b, ordy := .active, ofsm := .readyAsserted, seq := .sb5 b :: rest })
    hoffered hrun rfl hstrat
  have hsb6 := turns_sb6
    (e := { e with dout := b, ordy := .active, ofsm := .acknowledged, seq := .sb6 b :: rest })
    (peerOnly_peerAfter 1 hoffered) hrun rfl
  exact (turns_sb1 hp hrun hseq howner hdir).trans (hsb4.trans (hsb5.trans hsb6))

theorem turns_taken_acked (hp : peerOnly p = true) (hrun : e.run = .busy) (hseq : e.seq = .sb1 b :: rest)
    (howner : e.owner = .hostOutput) (hdir : e.dir = .output) (hstrat : e.strat = .acknowledged)
    (hack : ackTurn p = some r) :
    Turns (beside p e) (beside (peerTaken b (max 1 r) p) (sent b (.sb7 b :: rest) e))
      ∧ (peerTaken b (max 1 r) p).ackEdge = true := by
  have harmed := peerOnly_peerArmed b hp
  have htaken := peerOnly_peerAfter (max 1 r) (peerOnly_peerOffered harmed)
  obtain ⟨hwait, hedge⟩ := turns_sb4_rise (p := peerArmed b p) (e := { e with dout := b, seq := .sb4 b :: rest })
    harmed hrun rfl hstrat rfl ((edgeTurn_peerArmed b hp).trans hack)
  have hsb6 := turns_sb6 (e := { e with dout := b, ordy := .active, ofsm := .acknowledged, seq := .sb6 b :: rest })
    htaken hrun rfl
  exact ⟨(turns_sb1 hp hrun hseq howner hdir).trans (hwait.trans hsb6), ackEdge_peerAfter 1 htaken hedge⟩

/-- What stands beside the engine when `SendByte(b)` without readback has returned. -/
def peerSent (b : Byte) (m : Nat) (p : State) : State := peerAfter 2 (peerTaken b m p)

theorem peerOnly_peerSent (b : Byte) (m : Nat) (hp : peerOnly p = true) : peerOnly (peerSent b m p) = true :=
  peerOnly_peerAfter 2 (peerOnly_peerTaken b m hp)

/-- Under `PulseTimed` `SendByte` returns whatever the peer does (R141). -/
theorem turns_send_timed (hp : peerOnly p = true) (hrun : e.run = .busy) (hseq : e.seq = .sb1 b :: rest)
    (howner : e.owner = .hostOutput) (hdir : e.dir = .output) (hstrat : e.strat = .pulseTimed) :
    Turns (beside p e) (beside (peerSent b 1 p) (sent b rest e)) :=
  (turns_taken_timed hp hrun hseq howner hdir hstrat).trans
    (turns_sb7_plain (e := sent b (.sb7 b :: rest) e) (peerOnly_peerTaken b 1 hp) hrun rfl (.inl hstrat))

/-- Under `Acknowledged` without readback `SendByte` returns once the edge has come (R140). -/
theorem turns_send_acked (hp : peerOnly p = true) (hrun : e.run = .busy) (hseq : e.seq = .sb1 b :: rest)
    (howner : e.owner = .hostOutput) (hdir : e.dir = .output) (hstrat : e.strat = .acknowledged) (hrben : e.rben = false)
    (hack : ackTurn p = some r) :
    Turns (beside p e) (beside (peerSent b (max 1 r) p) (sent b rest e)) ∧ (peerSent b (max 1 r) p).ackEdge = true := by
  obtain ⟨hturns, hedge⟩ := turns_taken_acked hp hrun hseq howner hdir hstrat hack
  have htaken := peerOnly_peerTaken b (max 1 r) hp
  exact ⟨hturns.trans (turns_sb7_plain (e := sent b (.sb7 b :: rest) e) htaken hrun rfl (.inr hrben)),
    ackEdge_peerAfter 2 htaken hedge⟩

/-- Without an edge after SB3 `SendByte` waits at SB5, data ready active, for as long as nothing more comes (R140). -/
theorem turns_send_stalls (hp : peerOnly p = true) (hrun : e.run = .busy) (hseq : e.seq = .sb1 b :: rest)
    (howner : e.owner = .hostOutput) (hdir : e.dir = .output) (hstrat : e.strat = .acknowledged)
    (hnever : ackTurn p = none) :
    ∃ q, Turns (beside p e)
        (beside q { e with dout := b, ordy := .active, ofsm := .readyAsserted, seq := .sb5 b :: rest })
      ∧ q.env = [] ∧ q.ackEdge = false := by
  obtain ⟨q, hwait, hq⟩ := turns_sb4_never (p := peerArmed b p) (e := { e with dout := b, seq := .sb4 b :: rest })
    (peerOnly_peerArmed b hp) hrun rfl hstrat rfl ((edgeTurn_peerArmed b hp).trans hnever)
  exact ⟨q, (turns_sb1 hp hrun hseq howner hdir).trans hwait, hq⟩

end Sys2Proof.Machine
end

section
/-! SENDB and SENDW whatever the peer does (spec 42_handshake.md R138 to R148): they end under `PulseTimed`, end on their edges
under `Acknowledged`, and otherwise wait for ever. -/

namespace Sys2Proof.Machine

variable {s s1 t u p q e : State} {b : Byte} {x : Word} {rest : List Label} {l : Label} {i : Instr} {m r : Nat}

/-! ### The peer of a send -/

/-- The peer has gone through `7 + m` boundaries when `SendByte` has returned. -/
theorem samePeer_peerSent (b : Byte) (m : Nat) (hp : peerOnly p = true) :
    SamePeer (peerAfter (7 + m) p) (peerSent b m p) := by
  have harmed := samePeer_peerArmed b hp
  have hpeer := peerOnly_peerAfter 3 hp
  have hoffered : SamePeer (peerAfter 1 (peerAfter 3 p)) (peerOffered (peerArmed b p)) := harmed.peerAfter hpeer 1
  have hpeer' := peerOnly_peerAfter 1 hpeer
  have htaken : SamePeer (peerAfter 1 (peerAfter m (peerAfter 1 (peerAfter 3 p)))) (peerTaken b m p) :=
    (hoffered.peerAfter hpeer' m).peerAfter (peerOnly_peerAfter m hpeer') 1
  rw [show 7 + m = 3 + (1 + (m + (1 + 2))) by omega, peerAfter_add, peerAfter_add, peerAfter_add, peerAfter_add]
  exact htaken.peerAfter (peerOnly_peerAfter 1 (peerOnly_peerAfter m hpeer')) 2

theorem engineTrace_emit_engine {ev : TraceEvent} (hev : ev.ofEngine = true) (p : State) :
    engineTrace (emit ev p).trace = engineTrace p.trace ++ [ev] := by
  simp [engineTrace, hev]

/-- The engine's own events of a byte sent are its three (R138). -/
theorem engineTrace_peerTaken (b : Byte) (m : Nat) (hp : peerOnly p = true) :
    engineTrace (peerTaken b m p).trace = engineTrace p.trace ++ byteTrace b := by
  have harmed : engineTrace (peerArmed b p).trace = engineTrace p.trace ++ [.drove b] := by
    refine (engineTrace_peerAfter 1 (p := emit (.drove b) (peerAfter 2 p)) (peerOnly_peerAfter 2 hp)).trans ?_
    rw [engineTrace_emit_engine rfl, engineTrace_peerAfter 2 hp]
  have hp4 := peerOnly_peerArmed b hp
  have hp5 := peerOnly_peerOffered hp4
  rw [peerTaken, engineTrace_emit_engine rfl, engineTrace_peerAfter 1 (peerOnly_peerAfter m hp5),
    engineTrace_peerAfter m hp5, peerOffered, engineTrace_emit_engine rfl, engineTrace_peerAfter 1 hp4, harmed]
  simp [byteTrace]

theorem engineTrace_peerSent (b : Byte) (m : Nat) (hp : peerOnly p = true) :
    engineTrace (peerSent b m p).trace = engineTrace p.trace ++ byteTrace b :=
  (engineTrace_peerAfter 2 (peerOnly_peerTaken b m hp)).trans (engineTrace_peerTaken b m hp)

/-! ### The end of a send -/

/-- The engine after SENDB or SENDW has sent its last byte and completed. -/
def sendEnd (i : Instr) (b : Byte) (s : State) : State :=
  { s with dout := b, ofsm := .idle, ordy := .inactive, cur := encode i, res := 0#3, run := .ready, seq := [] }

/-- SENDB or SENDW ends one turn after its last `SendByte` has returned. -/
theorem exec_of_sent (hi : beforeStart i s = s) (hready : s.run = .ready) (hp : peerOnly s = true)
    (hq : peerOnly q = true)
    (h : Turns (beside s (accept (encode i) (startLabels i) s))
      (beside q (sent b [.complete] (accept (encode i) (startLabels i) s)))) :
    exec i s = .next (beside (peerAfter 1 q) (sendEnd i b s)) :=
  exec_of_returned hi hready hp hq rfl rfl h

/-- Settles O25: under `PulseTimed` `SendByte` returns, and then SENDB completes. -/
theorem timedByteIsSentWhateverThePeerDoes : Obligations.TimedByteIsSentWhateverThePeerDoes := by
  intro s b hready hp howner hdir hstrat
  have hsent := peerOnly_peerSent b 1 hp
  refine ⟨_, exec_of_sent (i := .sendb b) rfl hready hp hsent
    (turns_send_timed (e := accept (encode (.sendb b)) (startLabels (.sendb b)) s) hp rfl rfl howner hdir hstrat),
    rfl, rfl, rfl, rfl, rfl, rfl, ?_⟩
  exact (engineTrace_peerAfter 1 hsent).trans (engineTrace_peerSent b 1 hp)

theorem encodeWord_fst (x : Word) : (encodeWord x).1 = BitVec.ofNat 8 (x.toNat / 256) := by
  rw [← toNat_encodeWord_fst, BitVec.ofNat_toNat, BitVec.setWidth_eq]

theorem encodeWord_snd (x : Word) : (encodeWord x).2 = BitVec.ofNat 8 (x.toNat % 256) := by
  rw [← toNat_encodeWord_snd, BitVec.ofNat_toNat, BitVec.setWidth_eq]

/-- What stands beside the engine when both bytes of a word have been sent, the waits having taken `m` and `n` turns. -/
def peerSentWord (x : Word) (m n : Nat) (p : State) : State := peerSent (encodeWord x).2 n (peerSent (encodeWord x).1 m p)

theorem peerOnly_peerSentWord (x : Word) (m n : Nat) (hp : peerOnly p = true) : peerOnly (peerSentWord x m n p) = true :=
  peerOnly_peerSent _ n (peerOnly_peerSent _ m hp)

theorem engineTrace_peerSentWord (x : Word) (m n : Nat) (hp : peerOnly p = true) :
    engineTrace (peerSentWord x m n p).trace = engineTrace p.trace ++ byteTrace (BitVec.ofNat 8 (x.toNat / 256))
      ++ byteTrace (BitVec.ofNat 8 (x.toNat % 256)) := by
  rw [peerSentWord, engineTrace_peerSent _ n (peerOnly_peerSent _ m hp), engineTrace_peerSent _ m hp, encodeWord_fst,
    encodeWord_snd]

/-- Settles O26: two `SendByte`s under `PulseTimed`, the high byte's first. -/
theorem timedWordIsSentHighByteFirst : Obligations.TimedWordIsSentHighByteFirst := by
  intro s x hready hp howner hdir hstrat
  have hfirst := turns_send_timed (e := accept (encode (.sendw x)) (startLabels (.sendw x)) s) hp rfl rfl howner hdir hstrat
  have hsecond := turns_send_timed (b := (encodeWord x).2) (rest := [.complete])
    (e := sent (encodeWord x).1 [.sb1 (encodeWord x).2, .complete] (accept (encode (.sendw x)) (startLabels (.sendw x)) s))
    (peerOnly_peerSent (encodeWord x).1 1 hp) rfl rfl howner hdir hstrat
  have hsent := peerOnly_peerSentWord x 1 1 hp
  refine ⟨_, exec_of_sent (i := .sendw x) rfl hready hp hsent (hfirst.trans hsecond), rfl, rfl, rfl, rfl, rfl, rfl, ?_⟩
  exact (engineTrace_peerAfter 1 hsent).trans (engineTrace_peerSentWord x 1 1 hp)

/-! ### Acknowledged sends -/

theorem ackTurn_of_afterSend (h : afterSend p = some u) : ∃ r, ackTurn p = some r ∧ u = peerAfter (7 + max 1 r) p := by
  rw [afterSend_eq] at h
  obtain ⟨r, hr, rfl⟩ := Option.map_eq_some_iff.1 h
  exact ⟨r, hr, rfl⟩

theorem ackTurn_of_afterSend_none (h : afterSend p = none) : ackTurn p = none := by
  rw [afterSend_eq] at h
  exact Option.map_eq_none_iff.1 h

theorem ackTurn_congr (h : SamePeer p q) (hp : peerOnly p = true) : ackTurn q = ackTurn p := by
  obtain ⟨hotkn, -, -, henv⟩ := h.peerAfter hp 3
  rw [ackTurn, ackTurn, edgeTurn, edgeTurn, hotkn, henv]

/-- A send that ended on its edges: what is left to say of its state. -/
theorem sendEnd_acked (hq : peerOnly q = true) (hedge : q.ackEdge = true) (henv : q.env = u.env) :
    beside (peerAfter 1 q) (sendEnd i b s) = { s with
      dout := b, ackEdge := true, ofsm := .idle, ordy := .inactive, cur := encode i, res := 0#3, run := .ready, seq := []
      otkn := (peerAfter 1 q).otkn, irdy := (peerAfter 1 q).irdy, pdata := (peerAfter 1 q).pdata
      rdyEdge := (peerAfter 1 q).rdyEdge, trace := (peerAfter 1 q).trace, env := u.env.tail } := by
  have hedge' := ackEdge_peerAfter 1 hq hedge
  have henv' : (peerAfter 1 q).env = u.env.tail := by rw [peerAfter_env 1 hq, henv, List.drop_one]
  rw [← hedge', ← henv']
  rfl

/-- Where the peer stands after both bytes of a word. -/
theorem samePeer_peerSentWord (x : Word) (m n : Nat) (hp : peerOnly p = true) :
    SamePeer (peerAfter (7 + n) (peerAfter (7 + m) p)) (peerSentWord x m n p) := by
  have hfirst := samePeer_peerSent (encodeWord x).1 m hp
  exact (hfirst.peerAfter (peerOnly_peerAfter (7 + m) hp) (7 + n)).trans
    (samePeer_peerSent (encodeWord x).2 n (peerOnly_peerSent _ m hp))

/-- Under `Acknowledged` without readback both `SendByte`s of a word return, once each edge has come. -/
theorem turns_word_acked {n : Nat} (hp : peerOnly p = true) (hrun : e.run = .busy)
    (hseq : e.seq = .sb1 (encodeWord x).1 :: .sb1 (encodeWord x).2 :: rest) (howner : e.owner = .hostOutput)
    (hdir : e.dir = .output) (hstrat : e.strat = .acknowledged) (hrben : e.rben = false) (hr : ackTurn p = some r)
    (hn : ackTurn (peerAfter (7 + max 1 r) p) = some n) :
    Turns (beside p e) (beside (peerSentWord x (max 1 r) (max 1 n) p) (sent (encodeWord x).2 rest e))
      ∧ (peerSentWord x (max 1 r) (max 1 n) p).ackEdge = true := by
  obtain ⟨hfirst, -⟩ := turns_send_acked hp hrun hseq howner hdir hstrat hrben hr
  have hn' := (ackTurn_congr (samePeer_peerSent (encodeWord x).1 (max 1 r) hp) (peerOnly_peerAfter _ hp)).trans hn
  obtain ⟨hsecond, hedge⟩ := turns_send_acked (b := (encodeWord x).2) (rest := rest)
    (e := sent (encodeWord x).1 (.sb1 (encodeWord x).2 :: rest) e)
    (peerOnly_peerSent (encodeWord x).1 (max 1 r) hp) hrun rfl howner hdir hstrat hrben hn'
  exact ⟨hfirst.trans hsecond, hedge⟩

theorem afterSends_two (p : State) : afterSends 0 2 p = (afterSend p).bind afterSend := by
  simp [afterSends]

/-- Settles O28: each `SendByte` returns once its edge has come, and the peer is where `afterSend` says. -/
theorem acknowledgedSendsEndOnTheirEdges : Obligations.AcknowledgedSendsEndOnTheirEdges := by
  intro s u hready hp howner hdir hstrat hrben
  refine ⟨fun hu b => ?_, fun hu x => ?_⟩
  · obtain ⟨r, hr, rfl⟩ := ackTurn_of_afterSend hu
    obtain ⟨hturns, hedge⟩ := turns_send_acked (e := accept (encode (.sendb b)) (startLabels (.sendb b)) s) hp rfl rfl
      howner hdir hstrat hrben hr
    have hsent := peerOnly_peerSent b (max 1 r) hp
    obtain ⟨-, -, -, henv⟩ := samePeer_peerSent b (max 1 r) hp
    exact ⟨_, exec_of_sent (i := .sendb b) rfl hready hp hsent hturns, sendEnd_acked hsent hedge henv,
      (engineTrace_peerAfter 1 hsent).trans (engineTrace_peerSent b _ hp)⟩
  · rw [afterSends_two] at hu
    obtain ⟨v, hv, hu⟩ := Option.bind_eq_some_iff.1 hu
    obtain ⟨r, hr, rfl⟩ := ackTurn_of_afterSend hv
    obtain ⟨n, hn, rfl⟩ := ackTurn_of_afterSend hu
    obtain ⟨hturns, hedge⟩ := turns_word_acked (e := accept (encode (.sendw x)) (startLabels (.sendw x)) s) hp rfl rfl
      howner hdir hstrat hrben hr hn
    have hsent := peerOnly_peerSentWord x (max 1 r) (max 1 n) hp
    obtain ⟨-, -, -, henv⟩ := samePeer_peerSentWord x (max 1 r) (max 1 n) hp
    exact ⟨_, exec_of_sent (i := .sendw x) rfl hready hp hsent hturns, sendEnd_acked hsent hedge henv,
      (engineTrace_peerAfter 1 hsent).trans (engineTrace_peerSentWord x _ _ hp)⟩

/-! ### The wait without end -/

/-- The engine waiting at SB5 of `b`, data ready active, `rest` being the labels `SendByte` returns to. -/
def awaitingEdge (b : Byte) (rest : List Label) (e : State) : State :=
  { e with dout := b, ordy := .active, ofsm := .readyAsserted, seq := .sb5 b :: rest }

theorem run_succ {M : Host.Core} {a c : M.State} (h : M.step a = .next c) (n : Nat) : M.run (n + 1) a = M.run n c := by
  simp only [Host.Core.run, h]

theorem run_of_step_self (h : step t = .next t) (n : Nat) : Sys2Proof.core.run n t = .next t := by
  induction n with
  | zero => rfl
  | succ n ih => exact (run_succ (M := Sys2Proof.core) h n).trans ih

/-- At SB5 with no edge latched and nothing to come, a step leaves the very same state (R140). -/
theorem step_awaitingEdge (hrun : e.run = .busy) (hstrat : e.strat = .acknowledged) (henv : q.env = [])
    (hedge : q.ackEdge = false) : step (beside q (awaitingEdge b rest e)) = .next (beside q (awaitingEdge b rest e)) := by
  have hnil : (beside q (awaitingEdge b rest e)).env = [] := henv
  have hturn := engineTurn_at (s := beside q (awaitingEdge b rest e)) (l := .sb5 b) (rest := rest) hrun rfl
  have hbusy : (beside q (awaitingEdge b rest e)).run = .busy := hrun
  rw [step_of_letEnvAct (hostLooks_nil hnil) (letEnvAct_nil hnil), turn_of_busy hbusy, hturn,
    micro_sb5_wait (s := { beside q (awaitingEdge b rest e) with seq := rest }) hstrat hedge]
  rfl

/-- A command whose turns bring it to such a wait stands there for ever. -/
theorem exec_waits (hi : beforeStart i s = s) (hready : s.run = .ready) (hp : peerOnly s = true)
    (hstrat : s.strat = .acknowledged) (henv : q.env = []) (hedge : q.ackEdge = false)
    (h : Turns (beside s (accept (encode i) (startLabels i) s))
      (beside q (awaitingEdge b rest (accept (encode i) (startLabels i) s)))) :
    ∃ t, exec i s = .next t ∧ t = beside q (awaitingEdge b rest (accept (encode i) (startLabels i) s))
      ∧ t.ackEdge = false ∧ ∀ n, Sys2Proof.core.run n t = .next t := by
  refine ⟨_, exec_of_turns hready hp ?_ (.inr ?_), rfl, hedge, run_of_step_self (step_awaitingEdge rfl hstrat henv hedge)⟩
  · rw [hi]
    exact h
  · exact leftToEnv_of_awaits henv ⟨.sb5 b, rest, rfl, hstrat, hedge⟩

/-- Settles O30: without an edge after SB3 the turns stop at SB5, and a step there changes nothing. -/
theorem unacknowledgedSendStallsForEver : Obligations.UnacknowledgedSendStallsForEver := by
  intro s hready hp howner hdir hstrat
  refine ⟨fun hnone b => ?_, fun hnone x => ?_, fun u hrben hu hnone x => ?_⟩
  · obtain ⟨q, hturns, henv, hedge⟩ := turns_send_stalls (e := accept (encode (.sendb b)) (startLabels (.sendb b)) s)
      hp rfl rfl howner hdir hstrat (ackTurn_of_afterSend_none hnone)
    obtain ⟨t, ht, rfl, hedge, hstays⟩ := exec_waits (i := .sendb b) rfl hready hp hstrat henv hedge hturns
    exact ⟨_, ht, rfl, rfl, rfl, rfl, rfl, hedge, howner, hstays⟩
  · obtain ⟨q, hturns, henv, hedge⟩ := turns_send_stalls (e := accept (encode (.sendw x)) (startLabels (.sendw x)) s)
      hp rfl rfl howner hdir hstrat (ackTurn_of_afterSend_none hnone)
    obtain ⟨t, ht, rfl, hedge, hstays⟩ := exec_waits (i := .sendw x) rfl hready hp hstrat henv hedge hturns
    exact ⟨_, ht, rfl, rfl, rfl, rfl, rfl, hedge, howner, hstays⟩
  · obtain ⟨r, hr, rfl⟩ := ackTurn_of_afterSend hu
    obtain ⟨hfirst, -⟩ := turns_send_acked (e := accept (encode (.sendw x)) (startLabels (.sendw x)) s) hp rfl rfl
      howner hdir hstrat hrben hr
    have hnever := (ackTurn_congr (samePeer_peerSent (encodeWord x).1 (max 1 r) hp) (peerOnly_peerAfter _ hp)).trans
      (ackTurn_of_afterSend_none hnone)
    obtain ⟨q, hturns, henv, hedge⟩ := turns_send_stalls (b := (encodeWord x).2) (rest := [.complete])
      (e := sent (encodeWord x).1 [.sb1 (encodeWord x).2, .complete] (accept (encode (.sendw x)) (startLabels (.sendw x)) s))
      (peerOnly_peerSent (encodeWord x).1 (max 1 r) hp) rfl rfl howner hdir hstrat hnever
    obtain ⟨t, ht, rfl, hedge, hstays⟩ := exec_waits (i := .sendw x) rfl hready hp hstrat henv hedge (hfirst.trans hturns)
    exact ⟨_, ht, rfl, rfl, rfl, rfl, rfl, hedge, howner, hstays⟩

end Sys2Proof.Machine
end

section
/-! A peer that is silent but for one narrow pulse (spec 42_handshake.md R131): SENDB and SENDW to their exact trace, and the
readback of SB7 (R143, R144). -/

namespace Sys2Proof.Machine

variable {s t u p q e : State} {b v : Byte} {x : Word} {rest : List Label} {k m n : Nat} {es : List (List Event)}

/-! ### Silence and one pulse -/

/-- While nothing happens, boundaries only pass. -/
theorem peerAfter_silent (h : ∀ y ∈ p.env.take n, y = []) : peerAfter n p = { p with env := p.env.drop n } := by
  induction n generalizing p with
  | zero => rfl
  | succ n ih =>
    cases henv : p.env with
    | nil => rw [peerAfter_nil henv, List.drop_nil, ← henv]
    | cons y ys =>
      rw [henv, List.take_succ_cons, List.forall_mem_cons] at h
      have hone : letEnvAct p = .next { p with env := ys } := by simp [letEnvAct, henv, h.1, applyEvents]
      rw [peerAfter_succ hone, ih (p := { p with env := ys }) h.2]
      rfl

/-- A narrow pulse sets the latch and leaves the line as it was (R131). -/
theorem peerAfter_narrowPulse (hotkn : p.otkn = .inactive) (henv : p.env = narrowPulse :: es) :
    peerAfter 1 p = { p with
      ackEdge := true, env := es, trace := p.trace ++ [.peer .otkn .active, .peer .otkn .inactive] } := by
  have hone : letEnvAct p = .next { p with
      otkn := .inactive, ackEdge := true, env := es
      trace := p.trace ++ [.peer .otkn .active, .peer .otkn .inactive] } := by
    simp [letEnvAct, henv, narrowPulse, applyEvents, applyEvent, driveOtkn, hotkn, emit, Level.bit]
  rw [peerAfter_succ hone, peerAfter_zero, ← hotkn]

theorem pulseAt_append (k : Nat) (es : List (List Event)) :
    pulseAt k ++ es = [[], [], []] ++ (List.replicate k [] ++ narrowPulse :: es) := by
  simp [pulseAt, List.replicate_add, List.replicate]

theorem edgeTurn_replicate (k : Nat) (es : List (List Event)) :
    firstRise .otkn .inactive (List.replicate k [] ++ narrowPulse :: es) = some k := by
  induction k with
  | zero => rfl
  | succ k ih =>
    have hlevel : levelAfter .otkn .inactive [] = .inactive := rfl
    rw [List.replicate_succ, List.cons_append, firstRise, if_neg (by simp [risesIn]), hlevel, ih]
    rfl

/-- The pulse of `pulseAt k` comes `k` turns after SB3. -/
theorem ackTurn_pulseAt (hotkn : p.otkn = .inactive) (henv : p.env = pulseAt k ++ es) : ackTurn p = some k := by
  rw [pulseAt_append] at henv
  have hsilent : peerAfter 3 p = { p with env := p.env.drop 3 } := peerAfter_silent (by simp [henv])
  rw [ackTurn, hsilent, edgeTurn, hotkn, henv]
  exact edgeTurn_replicate k es

theorem peerArmed_pulseAt (henv : p.env = pulseAt k ++ es) : peerArmed b p = { p with
    ackEdge := false, env := List.replicate k [] ++ narrowPulse :: es, trace := p.trace ++ [.drove b] } := by
  rw [pulseAt_append] at henv
  have htwo : peerAfter 2 p = { p with env := p.env.drop 2 } := peerAfter_silent (by simp [henv])
  have hone := peerAfter_silent (n := 1) (p := emit (.drove b) (peerAfter 2 p)) (by simp [htwo, henv])
  rw [peerArmed, hone, htwo, henv]
  rfl

/-- Silence for `k` boundaries, then a narrow pulse. -/
theorem peerAfter_untilPulse (hotkn : p.otkn = .inactive) (henv : p.env = List.replicate k [] ++ narrowPulse :: es) :
    peerAfter (k + 1) p = { p with
      ackEdge := true, env := es, trace := p.trace ++ [.peer .otkn .active, .peer .otkn .inactive] } := by
  have hsilent : peerAfter k p = { p with env := p.env.drop k } := peerAfter_silent (by simp [henv])
  rw [peerAfter_add, hsilent]
  exact peerAfter_narrowPulse (p := { p with env := p.env.drop k }) hotkn (by simp [henv])

/-- The turns from the pulse of `pulseAt k` to SB7: SB6, and SB5 too if the pulse came before SB4. -/
def turnsToSb7 (k : Nat) : Nat := if k = 0 then 2 else 1

/-- The two ways of `pulseTrace`: the pulse comes before SB4, or during the wait at SB5. -/
theorem peerTaken_pulseAt (hotkn : p.otkn = .inactive) (henv : p.env = pulseAt k ++ es)
    (hsilent : ∀ y ∈ es.take (turnsToSb7 k), y = []) :
    peerTaken b (max 1 k) p = { p with
      ackEdge := true, env := es.drop (turnsToSb7 k), trace := p.trace ++ pulseTrace b k } := by
  have harmed := peerArmed_pulseAt (b := b) henv
  have harmedEnv : (peerArmed b p).env = List.replicate k [] ++ narrowPulse :: es := by rw [harmed]
  have harmedOtkn : (peerArmed b p).otkn = .inactive := by rw [harmed]; exact hotkn
  cases k with
  | zero =>
    have hoffered := peerAfter_untilPulse harmedOtkn harmedEnv
    have hrest := peerAfter_silent (n := 2) (p := peerOffered (peerArmed b p))
      (by rw [peerOffered, hoffered]; exact hsilent)
    rw [peerTaken, show max 1 0 = 1 from rfl, ← peerAfter_add, hrest, peerOffered, hoffered, harmed]
    simp [emit, pulseTrace, turnsToSb7]
  | succ k =>
    have hoffered : peerAfter 1 (peerArmed b p) = { peerArmed b p with env := (peerArmed b p).env.drop 1 } :=
      peerAfter_silent (by simp [harmedEnv, List.replicate_succ])
    have hpulse := peerAfter_untilPulse (k := k) (es := es) (p := peerOffered (peerArmed b p))
      (by rw [peerOffered, hoffered]; exact harmedOtkn)
      (by rw [peerOffered, hoffered, harmedEnv]; rfl)
    have hrest := peerAfter_silent (n := 1) (p := peerAfter (k + 1) (peerOffered (peerArmed b p)))
      (by rw [hpulse]; exact hsilent)
    rw [peerTaken, show max 1 (k + 1) = k + 1 by omega, hrest, hpulse, peerOffered, hoffered, harmed]
    simp [emit, pulseTrace, turnsToSb7]

theorem peerSent_pulseAt (hotkn : p.otkn = .inactive) (henv : p.env = pulseAt k ++ es)
    (hsilent : ∀ y ∈ es.take (turnsToSb7 k + 2), y = []) :
    peerSent b (max 1 k) p = { p with
      ackEdge := true, env := es.drop (turnsToSb7 k + 2), trace := p.trace ++ pulseTrace b k } := by
  rw [List.take_add, List.forall_mem_append] at hsilent
  have htaken := peerTaken_pulseAt (b := b) hotkn henv hsilent.1
  have hrest := peerAfter_silent (n := 2) (p := peerTaken b (max 1 k) p) (by rw [htaken]; exact hsilent.2)
  rw [peerSent, hrest, htaken]
  simp

/-- The schedule of a pulse is the peer's alone. -/
theorem all_ofPeer_pulseAt (k : Nat) : (pulseAt k).all (fun es => es.all Event.ofPeer) = true := by
  rw [pulseAt, List.all_append, List.all_replicate]
  simp [narrowPulse, Event.ofPeer]

theorem pulsesAt_eq (k m : Nat) :
    pulsesAt k m = pulseAt k ++ (List.replicate (turnsToSb7 k + 2) [] ++ pulseAt m) := by
  rw [pulsesAt, List.append_assoc]
  cases k <;> rfl

theorem all_ofPeer_pulsesAt (k m : Nat) : (pulsesAt k m).all (fun es => es.all Event.ofPeer) = true := by
  rw [pulsesAt_eq, List.all_append, List.all_append, all_ofPeer_pulseAt, all_ofPeer_pulseAt, List.all_replicate]
  simp

/-- Settles O27: the pulse is the edge that ends the wait, and beside a peer else silent nothing more happens. -/
theorem narrowPulseEndsTheWait : Obligations.NarrowPulseEndsTheWait := by
  intro s k hready howner hdir hstrat hrben hotkn
  refine ⟨fun henv b => ?_, fun m x henv => ?_⟩
  · have hp : peerOnly s = true := by rw [peerOnly, henv, all_ofPeer_pulseAt]
    have henv' : s.env = pulseAt k ++ [] := by rw [henv, List.append_nil]
    obtain ⟨hturns, -⟩ := turns_send_acked (e := accept (encode (.sendb b)) (startLabels (.sendb b)) s) hp rfl rfl
      howner hdir hstrat hrben (ackTurn_pulseAt hotkn henv')
    have hsent := peerSent_pulseAt (b := b) hotkn henv' (by simp)
    rw [exec_of_sent (i := .sendb b) rfl hready hp (peerOnly_peerSent b _ hp) hturns, hsent, List.drop_nil,
      peerAfter_nil rfl]
    rfl
  · have hp : peerOnly s = true := by rw [peerOnly, henv, all_ofPeer_pulsesAt]
    rw [pulsesAt_eq] at henv
    have hfirst := peerSent_pulseAt (b := (encodeWord x).1) hotkn henv (by simp)
    rw [List.drop_left' (List.length_replicate ..)] at hfirst
    have henv2 : (peerSent (encodeWord x).1 (max 1 k) s).env = pulseAt m ++ [] := by rw [hfirst, List.append_nil]
    have hotkn2 : (peerSent (encodeWord x).1 (max 1 k) s).otkn = .inactive := by rw [hfirst]; exact hotkn
    have hack2 : ackTurn (peerAfter (7 + max 1 k) s) = some m :=
      (ackTurn_congr (samePeer_peerSent (encodeWord x).1 (max 1 k) hp) (peerOnly_peerAfter _ hp)).symm.trans
        (ackTurn_pulseAt hotkn2 henv2)
    obtain ⟨hturns, -⟩ := turns_word_acked (e := accept (encode (.sendw x)) (startLabels (.sendw x)) s) hp rfl rfl
      howner hdir hstrat hrben (ackTurn_pulseAt hotkn henv) hack2
    have hsecond := peerSent_pulseAt (b := (encodeWord x).2) hotkn2 henv2 (by simp)
    rw [exec_of_sent (i := .sendw x) rfl hready hp (peerOnly_peerSentWord x _ _ hp) hturns, peerSentWord, hsecond,
      List.drop_nil, peerAfter_nil rfl, hfirst]
    rfl

/-! ### The readback -/

/-- What stands beside the engine after SB7 and SB7a, which gives the bus back (R143). -/
def peerReleased (p : State) : State := emit (.direction .input) (emit (.deasserted .csho) (peerAfter 2 p))

/-- After SB7b, which claims the bus for peer input. -/
def peerListening (p : State) : State := emit (.asserted .cspi) (peerAfter 1 (peerReleased p))

/-- The Byte that SB7c samples. -/
def readbackByte (p : State) : Byte := (peerAfter 1 (peerListening p)).pdata

/-- After SB7c. -/
def peerSampled (p : State) : State := emit (.sampled (readbackByte p)) (peerAfter 1 (peerListening p))

/-- After SB7d, which gives the bus back again. -/
def peerFreed (p : State) : State := emit (.deasserted .cspi) (peerAfter 1 (peerSampled p))

/-- After SB7e, which claims the bus for output. -/
def peerRestored (p : State) : State := emit (.asserted .csho) (emit (.direction .output) (peerAfter 1 (peerFreed p)))

/-- After SB7f and SB8: the readback is over. -/
def peerReadBack (p : State) : State := peerAfter 2 (peerRestored p)

theorem peerOnly_peerReleased (hp : peerOnly p = true) : peerOnly (peerReleased p) = true := by
  rw [peerReleased, peerOnly_emit, peerOnly_emit]
  exact peerOnly_peerAfter 2 hp

theorem peerOnly_peerListening (hp : peerOnly p = true) : peerOnly (peerListening p) = true := by
  rw [peerListening, peerOnly_emit]
  exact peerOnly_peerAfter 1 (peerOnly_peerReleased hp)

theorem peerOnly_peerSampled (hp : peerOnly p = true) : peerOnly (peerSampled p) = true := by
  rw [peerSampled, peerOnly_emit]
  exact peerOnly_peerAfter 1 (peerOnly_peerListening hp)

theorem peerOnly_peerFreed (hp : peerOnly p = true) : peerOnly (peerFreed p) = true := by
  rw [peerFreed, peerOnly_emit]
  exact peerOnly_peerAfter 1 (peerOnly_peerSampled hp)

theorem peerOnly_peerRestored (hp : peerOnly p = true) : peerOnly (peerRestored p) = true := by
  rw [peerRestored, peerOnly_emit, peerOnly_emit]
  exact peerOnly_peerAfter 1 (peerOnly_peerFreed hp)

theorem peerOnly_peerReadBack (hp : peerOnly p = true) : peerOnly (peerReadBack p) = true :=
  peerOnly_peerAfter 2 (peerOnly_peerRestored hp)

/-- The bus held for output, as the first CLAIM pair of R93 leaves it (R45). -/
def heldForOutput (e : State) : State := { e with owner := .hostOutput, dir := .output, csho := .active, cspi := .inactive }

/-- The bus free. -/
def busFree (e : State) : State := { e with owner := .none, dir := .input, csho := .inactive, cspi := .inactive }

/-- The bus held for peer input. -/
def heldForInput (e : State) : State := { e with owner := .peerInput, dir := .input, csho := .inactive, cspi := .active }

theorem heldForOutput_of_arbiterOk (h : arbiterOk s = true) (howner : s.owner = .hostOutput) : heldForOutput s = s := by
  obtain ⟨⟨hdir, hcsho⟩, hcspi⟩ := (arbiterOk_hostOutput howner).1 h
  rw [heldForOutput, ← howner, ← hdir, ← hcsho, ← hcspi]

/-- SB7f's comparison (R144). -/
def compared (b v : Byte) (e : State) : State := if v = b then e else recordMismatch b v e

theorem micro_sb7f (b v : Byte) (rest : List Label) (p e : State) :
    micro (.sb7f b v) (beside p { e with seq := rest }) = .next (beside p { compared b v e with seq := .sb8 :: rest }) := by
  unfold compared
  by_cases h : v = b
  · rw [if_pos h]
    exact congrArg (fun u => Host.Outcome.next (goto [.sb8] u)) (if_pos h)
  · rw [if_neg h]
    exact congrArg (fun u => Host.Outcome.next (goto [.sb8] u)) (if_neg h)

theorem compared_run (b v : Byte) (e : State) : (compared b v e).run = e.run := by
  unfold compared
  split <;> rfl

theorem micro_sb7a (b : Byte) (rest : List Label) (p e : State) :
    micro (.sb7a b) (beside p { heldForOutput e with seq := rest }) =
      .next (beside (emit (.direction .input) (emit (.deasserted .csho) p)) { busFree e with seq := .sb7b b :: rest }) := by
  unfold beside heldForOutput busFree
  rfl

theorem micro_sb7e (b v : Byte) (rest : List Label) (p e : State) :
    micro (.sb7e b v) (beside p { busFree e with seq := rest }) =
      .next (beside (emit (.asserted .csho) (emit (.direction .output) p))
        { heldForOutput e with seq := .sb7f b v :: rest }) := by
  unfold beside heldForOutput busFree
  rfl

theorem turns_sb7_release (hp : peerOnly p = true) (hrun : e.run = .busy) (hstrat : e.strat = .acknowledged)
    (hrben : e.rben = true) : Turns (beside p { heldForOutput e with seq := .sb7 b :: rest })
      (beside (peerReleased p) { busFree e with seq := .sb7b b :: rest }) := by
  have hsb7 : Turns (beside p { heldForOutput e with seq := .sb7 b :: rest })
      (beside (peerAfter 1 p) { heldForOutput e with seq := .sb7a b :: rest }) :=
    .step hp hrun rfl (congrArg Host.Outcome.next (if_pos ⟨hstrat, hrben⟩))
  refine hsb7.trans ?_
  rw [peerReleased, peerAfter_add 1 1 p]
  exact Turns.step (peerOnly_peerAfter 1 hp) hrun rfl (micro_sb7a b rest _ e)

theorem turns_sb7b_sample (hp : peerOnly p = true) (hrun : e.run = .busy) :
    Turns (beside (peerReleased p) { busFree e with seq := .sb7b b :: rest })
      (beside (peerSampled p) { heldForInput e with seq := .sb7d b (readbackByte p) :: rest }) := by
  have hsb7b : Turns (beside (peerReleased p) { busFree e with seq := .sb7b b :: rest })
      (beside (peerListening p) { heldForInput e with seq := .sb7c b :: rest }) :=
    .step (peerOnly_peerReleased hp) hrun rfl rfl
  have hsb7c : Turns (beside (peerListening p) { heldForInput e with seq := .sb7c b :: rest })
      (beside (peerSampled p) { heldForInput e with seq := .sb7d b (readbackByte p) :: rest }) :=
    .step (peerOnly_peerListening hp) hrun rfl rfl
  exact hsb7b.trans hsb7c

theorem turns_sb7d_restore (hp : peerOnly p = true) (hrun : e.run = .busy) :
    Turns (beside (peerSampled p) { heldForInput e with seq := .sb7d b v :: rest })
      (beside (peerRestored p) { heldForOutput e with seq := .sb7f b v :: rest }) := by
  have hsb7d : Turns (beside (peerSampled p) { heldForInput e with seq := .sb7d b v :: rest })
      (beside (peerFreed p) { busFree e with seq := .sb7e b v :: rest }) :=
    .step (peerOnly_peerSampled hp) hrun rfl rfl
  have hsb7e : Turns (beside (peerFreed p) { busFree e with seq := .sb7e b v :: rest })
      (beside (peerRestored p) { heldForOutput e with seq := .sb7f b v :: rest }) :=
    .step (peerOnly_peerFreed hp) hrun rfl (micro_sb7e b v rest _ e)
  exact hsb7d.trans hsb7e

theorem turns_sb7f_compare (hp : peerOnly p = true) (hrun : e.run = .busy) :
    Turns (beside p { e with seq := .sb7f b v :: rest }) (beside (peerAfter 2 p) { compared b v e with seq := rest }) := by
  have hsb7f : Turns (beside p { e with seq := .sb7f b v :: rest })
      (beside (peerAfter 1 p) { compared b v e with seq := .sb8 :: rest }) :=
    .step hp hrun rfl (micro_sb7f b v rest (peerAfter 1 p) e)
  refine hsb7f.trans ?_
  rw [peerAfter_add 1 1 p]
  exact Turns.step (peerOnly_peerAfter 1 hp) ((compared_run b v e).trans hrun) rfl rfl

/-- SB7 to SB8 with readback: the bus is held as before, and the sampled byte compared (R143, R144). -/
theorem turns_readback (hp : peerOnly p = true) (hrun : e.run = .busy) (hstrat : e.strat = .acknowledged)
    (hrben : e.rben = true) (harb : arbiterOk e = true) (howner : e.owner = .hostOutput) :
    Turns (beside p { e with seq := .sb7 b :: rest })
      (beside (peerReadBack p) { compared b (readbackByte p) e with seq := rest }) := by
  have hback := turns_sb7f_compare (b := b) (v := readbackByte p) (rest := rest) (e := heldForOutput e)
    (peerOnly_peerRestored hp) hrun
  have hread := (turns_sb7_release hp hrun hstrat hrben).trans <| (turns_sb7b_sample hp hrun).trans <|
    (turns_sb7d_restore hp hrun).trans hback
  rwa [heldForOutput_of_arbiterOk harb howner] at hread

theorem peerReadBack_silent (henv : p.env = []) :
    peerReadBack p = { p with trace := p.trace ++ readbackTrace p.pdata } := by
  simp [peerReadBack, peerRestored, peerFreed, peerSampled, readbackByte, peerListening, peerReleased, peerAfter_nil, henv,
    readbackTrace, emit]

theorem readbackByte_silent (henv : p.env = []) : readbackByte p = p.pdata := by
  simp [readbackByte, peerListening, peerReleased, peerAfter_nil, henv]

theorem satIncr_eq (n : BitVec 16) : satIncr n = BitVec.ofNat 16 (min (n.toNat + 1) 0xFFFF) :=
  BitVec.eq_of_toNat_eq (by rw [satIncr_toNat, BitVec.toNat_ofNat, Nat.mod_eq_of_lt (by omega)])

/-- What a comparison leaves, field by field (R144, R39). -/
theorem compared_eq (b v : Byte) (e : State) : compared b v e = { e with
    errstat := if v = b then e.errstat else e.errstat ||| 0x10#8
    rbsent := if v = b then e.rbsent else b
    rbread := if v = b then e.rbread else v
    rbcnt := if v = b then e.rbcnt else BitVec.ofNat 16 (min (e.rbcnt.toNat + 1) 0xFFFF) } := by
  unfold compared
  by_cases h : v = b
  · simp only [if_pos h]
  · simp only [if_neg h, recordMismatch, satIncr_eq, setErrBit_readbackMismatch]

/-- Settles O29: the pulse ends the wait, and the readback beside a peer then silent samples its byte and compares. -/
theorem readbackComparesAndRestoresTheBus : Obligations.ReadbackComparesAndRestoresTheBus := by
  intro s b k hready harb howner hstrat hrben hotkn henv
  have hp : peerOnly s = true := by rw [peerOnly, henv, all_ofPeer_pulseAt]
  have henv' : s.env = pulseAt k ++ [] := by rw [henv, List.append_nil]
  obtain ⟨⟨hdir, -⟩, -⟩ := (arbiterOk_hostOutput howner).1 harb
  have hack := ackTurn_pulseAt hotkn henv'
  have htaken : peerTaken b (max 1 k) s = { s with ackEdge := true, env := [], trace := s.trace ++ pulseTrace b k } := by
    rw [peerTaken_pulseAt hotkn henv' (by simp), List.drop_nil]
  have hsilent : (peerTaken b (max 1 k) s).env = [] := by rw [htaken]
  have hreadPeer := peerOnly_peerTaken b (max 1 k) hp
  obtain ⟨hturns, -⟩ := turns_taken_acked (e := accept (encode (.sendb b)) (startLabels (.sendb b)) s) hp rfl rfl howner
    hdir hstrat hack
  have hread := turns_readback (b := b) (rest := [.complete])
    (e := sent b [.complete] (accept (encode (.sendb b)) (startLabels (.sendb b)) s)) hreadPeer rfl hstrat hrben harb howner
  rw [exec_of_returned (i := .sendb b) rfl hready hp (peerOnly_peerReadBack hreadPeer) (compared_run _ _ _) rfl
      (hturns.trans hread), peerReadBack_silent hsilent, readbackByte_silent hsilent, compared_eq, htaken,
    peerAfter_nil rfl]
  rfl

end Sys2Proof.Machine
end

section
/-! RECVB whatever the peer does (spec 42_handshake.md R152, R155): `ReceiveByte` awaits nothing, so it always returns. -/

namespace Sys2Proof.Machine

variable {s p q e : State} {rest : List Label}

/-! ### The peer of a receive -/

/-- The same peer with the same latch, left alone for as long, sets the latch alike. -/
theorem SamePeer.rdyEdge_peerAfter (h : SamePeer p q) (hrdy : q.rdyEdge = p.rdyEdge) (hp : Machine.peerOnly p = true)
    (n : Nat) : (Machine.peerAfter n q).rdyEdge = (Machine.peerAfter n p).rdyEdge := by
  have hq := h.peerOnly hp
  obtain ⟨-, hirdy, -, henv⟩ := h
  rw [peerAfter_rdyEdge n hp, peerAfter_rdyEdge n hq, hrdy, hirdy, henv]

/-- What stands beside the engine after RB1 and RB2, which samples the lines and clears `RDYEDGE` (R152). -/
def peerRead (p : State) : State :=
  { emit (.sampled (peerAfter 2 p).pdata) (peerAfter 2 p) with rdyEdge := false }

/-- After RB3, which asserts "data taken". -/
def peerAnswered (p : State) : State := emit (.asserted .itkn) (peerAfter 1 p)

/-- After RB4 and RB5, which deasserts it. -/
def peerUnanswered (p : State) : State := emit (.deasserted .itkn) (peerAfter 2 p)

/-- After RB6: `ReceiveByte` returns. -/
def peerReceived (p : State) : State := peerAfter 1 (peerUnanswered (peerAnswered (peerRead p)))

theorem peerOnly_peerRead (hp : peerOnly p = true) : peerOnly (peerRead p) = true := by
  simpa [peerOnly, peerRead] using peerOnly_peerAfter 2 hp

theorem peerOnly_peerAnswered (hp : peerOnly p = true) : peerOnly (peerAnswered p) = true := by
  rw [peerAnswered, peerOnly_emit]
  exact peerOnly_peerAfter 1 hp

theorem peerOnly_peerUnanswered (hp : peerOnly p = true) : peerOnly (peerUnanswered p) = true := by
  rw [peerUnanswered, peerOnly_emit]
  exact peerOnly_peerAfter 2 hp

theorem peerOnly_peerReceived (hp : peerOnly p = true) : peerOnly (peerReceived p) = true :=
  peerOnly_peerAfter 1 (peerOnly_peerUnanswered (peerOnly_peerAnswered (peerOnly_peerRead hp)))

/-- After RB2 the engine moves nothing of the peer's, and not the latch. -/
theorem peerAfter_peerReceived (n : Nat) (hp : peerOnly p = true) :
    (peerAfter n (peerReceived p)).env = (peerAfter (4 + n) (peerRead p)).env
      ∧ (peerAfter n (peerReceived p)).rdyEdge = (peerAfter (4 + n) (peerRead p)).rdyEdge := by
  have hread := peerOnly_peerRead hp
  have hread1 := peerOnly_peerAfter 1 hread
  have hanswered : SamePeer (peerAfter 1 (peerRead p)) (peerAnswered (peerRead p)) := ⟨rfl, rfl, rfl, rfl⟩
  have hunanswered : SamePeer (peerAfter 2 (peerAfter 1 (peerRead p))) (peerUnanswered (peerAnswered (peerRead p))) :=
    hanswered.peerAfter hread1 2
  have hpeer := peerOnly_peerAfter 2 hread1
  have hsplit : peerAfter (4 + n) (peerRead p) = peerAfter (1 + n) (peerAfter 2 (peerAfter 1 (peerRead p))) := by
    rw [show 4 + n = 1 + 2 + (1 + n) by omega, peerAfter_add (1 + 2), peerAfter_add 1 2]
  rw [peerReceived, ← peerAfter_add, hsplit]
  exact ⟨(hunanswered.peerAfter hpeer (1 + n)).2.2.2,
    hunanswered.rdyEdge_peerAfter (hanswered.rdyEdge_peerAfter rfl hread1 2) hpeer (1 + n)⟩

theorem engineTrace_peerReceived (hp : peerOnly p = true) :
    engineTrace (peerReceived p).trace = engineTrace p.trace
      ++ [.sampled (peerAfter 2 p).pdata, .asserted .itkn, .deasserted .itkn] := by
  have hread := peerOnly_peerRead hp
  have hanswered := peerOnly_peerAnswered hread
  have htrace : engineTrace (peerRead p).trace = engineTrace p.trace ++ [.sampled (peerAfter 2 p).pdata] :=
    (engineTrace_emit_engine rfl _).trans (by rw [engineTrace_peerAfter 2 hp])
  rw [peerReceived, engineTrace_peerAfter 1 (peerOnly_peerUnanswered hanswered), peerUnanswered,
    engineTrace_emit_engine rfl, engineTrace_peerAfter 2 hanswered, peerAnswered, engineTrace_emit_engine rfl,
    engineTrace_peerAfter 1 hread, htrace]
  simp

theorem ackEdge_peerReceived (hp : peerOnly p = true) (hack : p.ackEdge = true) : (peerReceived p).ackEdge = true := by
  have hread := peerOnly_peerRead hp
  have hanswered := peerOnly_peerAnswered hread
  have hack2 : (peerRead p).ackEdge = true := ackEdge_peerAfter 2 hp hack
  have hack3 : (peerAnswered (peerRead p)).ackEdge = true := ackEdge_peerAfter 1 hread hack2
  have hack5 : (peerUnanswered (peerAnswered (peerRead p))).ackEdge = true := ackEdge_peerAfter 2 hanswered hack3
  exact ackEdge_peerAfter 1 (peerOnly_peerUnanswered hanswered) hack5

/-! ### The turns of `ReceiveByte` -/

/-- The engine when `ReceiveByte` has returned `v` to the labels `rest`. -/
def received (v : Byte) (rest : List Label) (e : State) : State :=
  { e with din := v, inbuf := e.inbuf ++ [v], ifsm := .idle, itkn := .inactive, seq := rest }

/-- The engine after RB2, which latches the byte `v` and appends it (R152). -/
def latched (v : Byte) (rest : List Label) (e : State) : State :=
  { e with din := v, inbuf := e.inbuf ++ [v], ifsm := .readyAsserted, seq := .rb3 :: rest }

theorem stepRb2_of_peer (h : peerOnBus s = true) : stepRb2 s =
    goto [.rb3] (appendInbuf s.pdata { emit (.sampled s.pdata) s with din := s.pdata, rdyEdge := false }) := by
  rw [stepRb2, sampleData_of_peer h]

theorem turns_rb1_latch (hp : peerOnly p = true) (hrun : e.run = .busy) (howner : e.owner = .peerInput)
    (hdir : e.dir = .input) : Turns (beside p { e with seq := .rb1 :: rest })
      (beside (peerRead p) (latched (peerAfter 2 p).pdata rest e)) := by
  have hrb1 : Turns (beside p { e with seq := .rb1 :: rest })
      (beside (peerAfter 1 p) { e with ifsm := .readyAsserted, seq := .rb2 :: rest }) := .step hp hrun rfl rfl
  refine hrb1.trans ?_
  rw [peerRead, peerAfter_add 1 1 p]
  exact Turns.step (peerOnly_peerAfter 1 hp) hrun rfl
    (congrArg Host.Outcome.next (stepRb2_of_peer (by simp [peerOnBus, beside, howner, hdir])))

theorem turns_rb3_return (v : Byte) (hp : peerOnly p = true) (hrun : e.run = .busy) : Turns (beside p (latched v rest e))
      (beside (peerAfter 1 (peerUnanswered (peerAnswered p))) (received v rest e)) := by
  have hanswered := peerOnly_peerAnswered hp
  have hrb3 : Turns (beside p (latched v rest e))
      (beside (peerAnswered p) { latched v rest e with itkn := .active, ifsm := .acknowledged, seq := .rb4 :: rest }) :=
    .step hp hrun rfl rfl
  have hrb4 : Turns
      (beside (peerAnswered p) { latched v rest e with itkn := .active, ifsm := .acknowledged, seq := .rb4 :: rest })
      (beside (peerAfter 1 (peerAnswered p))
        { latched v rest e with itkn := .active, ifsm := .acknowledged, seq := .rb5 :: rest }) :=
    .step hanswered hrun rfl rfl
  have hrb5 : Turns
      (beside (peerAfter 1 (peerAnswered p))
        { latched v rest e with itkn := .active, ifsm := .acknowledged, seq := .rb5 :: rest })
      (beside (peerUnanswered (peerAnswered p))
        { latched v rest e with itkn := .inactive, ifsm := .acknowledged, seq := .rb6 :: rest }) := by
    rw [peerUnanswered, peerAfter_add 1 1]
    exact Turns.step (peerOnly_peerAfter 1 hanswered) hrun rfl rfl
  exact hrb3.trans <| hrb4.trans <| hrb5.trans <| Turns.step (peerOnly_peerUnanswered hanswered) hrun rfl rfl

/-- `ReceiveByte` always returns, with the byte the peer presents at RB2 (R152). -/
theorem turns_receive (hp : peerOnly p = true) (hrun : e.run = .busy) (howner : e.owner = .peerInput)
    (hdir : e.dir = .input) : Turns (beside p { e with seq := .rb1 :: rest })
      (beside (peerReceived p) (received (peerAfter 2 p).pdata rest e)) :=
  (turns_rb1_latch hp hrun howner hdir).trans (turns_rb3_return _ (peerOnly_peerRead hp) hrun)

/-- RECVB's test: the bus is held for peer input and "data ready" is active (R155). -/
theorem stepRecv_of_ready (howner : s.owner = .peerInput) (hdir : s.dir = .input) (hirdy : s.irdy = .active) :
    stepRecv s = goto [.rb1, .complete] s := by
  simp [stepRecv, howner, hdir, hirdy]

/-- Settles O34: after its test RECVB is one `ReceiveByte`. -/
theorem receivedByteIsLatchedAndAppended : Obligations.ReceivedByteIsLatchedAndAppended := by
  intro s hready hp howner hdir hirdy
  have hp1 := peerOnly_peerAfter 1 hp
  have hreceived := peerOnly_peerReceived hp1
  have hbyte : peerAfter 2 (peerAfter 1 s) = peerAfter 3 s := (peerAfter_add 1 2 s).symm
  have htest : Turns (beside s (accept (encode .recvb) (startLabels .recvb) s))
      (beside (peerAfter 1 s) { accept (encode .recvb) [] s with seq := [.rb1, .complete] }) :=
    .step hp rfl rfl (congrArg Host.Outcome.next (stepRecv_of_ready howner hdir hirdy))
  have hreceive := turns_receive (rest := [.complete]) (e := accept (encode .recvb) [] s) hp1 rfl howner hdir
  have hexec := exec_of_returned (i := .recvb) rfl hready hp hreceived rfl rfl (htest.trans hreceive)
  have hread := peerOnly_peerRead hp1
  obtain ⟨henv, hrdy⟩ := peerAfter_peerReceived 1 hp1
  have henv8 : (peerAfter 1 (peerReceived (peerAfter 1 s))).env = s.env.drop 8 := by
    rw [henv, peerAfter_env _ hread, peerRead, hbyte]
    change ((peerAfter 3 s).env).drop 5 = _
    rw [peerAfter_env 3 hp, List.drop_drop]
  have hrdy5 : (peerAfter 1 (peerReceived (peerAfter 1 s))).rdyEdge =
      risesIn .irdy (peerAfter 3 s).irdy ((peerAfter 3 s).env.take 5).flatten := by
    rw [hrdy, peerAfter_rdyEdge _ hread, peerRead, hbyte]
    exact Bool.false_or _
  refine ⟨_, hexec, ?_, fun hack => ?_, ?_⟩
  · rw [← henv8, ← hrdy5, ← hbyte]
    rfl
  · exact ackEdge_peerAfter 1 hreceived (ackEdge_peerReceived hp1 (ackEdge_peerAfter 1 hp hack))
  · have htrace := (engineTrace_peerAfter 1 hreceived).trans (engineTrace_peerReceived hp1)
    rwa [engineTrace_peerAfter 1 hp, hbyte] at htrace

end Sys2Proof.Machine
end

section
/-! What the downloads leave alone (spec 10_state.md section 7), and where a download can stand: the claim at DL2 holds for
every `SendByte`, so none of them breaks its precondition (spec 43_download.md R177). -/

namespace Sys2Proof.Machine

variable {l l' : Label} {s t u : State} {i : Instr} {n : Nat}

/-! ### Where a download stands -/

/-- The bus is held for output, as `SendByte` requires (spec 42_handshake.md R138). -/
def BusHeld (s : State) : Prop := s.owner = .hostOutput ∧ s.dir = .output

/-- A readback follows SB6 (spec 42_handshake.md R141, R143). -/
def HasReadback (s : State) : Prop := s.strat = .acknowledged ∧ s.rben = true

theorem HasReadback.not_noReadback (h : HasReadback s) : ¬ NoReadback s := by
  obtain ⟨hstrat, hrben⟩ := h
  simp [NoReadback, hstrat, hrben]

/-- `n` is the payload's length, short enough to be framed (spec 43_download.md R176). -/
def FrameLength (n : Nat) (s : State) : Prop := n = s.plen ∧ n ≤ 65535

/-- `IDX` is an index of the frame of a payload of length `n` (spec 43_download.md R175). -/
def FrameIndex (n : Nat) (s : State) : Prop := FrameLength n s ∧ s.idx.toNat < n + 7

/-- What holds at a label of the download's own. -/
def DownloadAt (l : Label) (s : State) : Prop :=
  match l with
  | .dl2 n => FrameLength n s
  | .dl3 n => FrameLength n s ∧ BusHeld s
  | .dl4 n => FrameIndex n s ∧ BusHeld s
  | .dl5 n => FrameIndex n s ∧ BusHeld s
  | _ => True

/-- What holds at a label of a `SendByte` that a download has called. -/
def SendAt (l : Label) (s : State) : Prop :=
  match l with
  | .sb7a _ => BusHeld s ∧ HasReadback s
  | .sb7b _ => s.owner = .none ∧ HasReadback s
  | .sb7c _ => s.owner = .peerInput ∧ HasReadback s
  | .sb7d _ _ => s.owner = .peerInput ∧ HasReadback s
  | .sb7e _ _ => s.owner = .none ∧ HasReadback s
  | .sb7f _ _ => BusHeld s ∧ HasReadback s
  | _ => BusHeld s

/-- Where a download can stand: it has ended, or is at a label of its own, or at one of `SendByte`'s above DL5. -/
inductive OnTrack (s : State) : Prop where
  | ended (hseq : s.seq = [])
  | own {l : Label} (hl : l.ofDownload = true) (hseq : s.seq = [l]) (hat : DownloadAt l s)
  | sending {l : Label} {n : Nat} (hl : l.ofSend = true) (hseq : s.seq = [l, .dl5 n]) (hat : SendAt l s)
      (hindex : FrameIndex n s)

/-! ### The frame -/

/-- What DLOAD and DLOADI leave alone; of `ERRSTAT` every bit but 1, 3 and 4. -/
def downloadFrame (s : State) :=
  ((s.din, s.loadAddr, s.execAddr, s.length), (s.ifsm, s.strat, s.rben, s.drainCnt, s.itkn),
    (s.inbuf, s.host, s.pay, s.plen), s.errstat ||| 0x1A#8)

/-- The mismatch record, with bit 4 of `ERRSTAT` (spec 42_handshake.md R144). -/
def mismatchRecord (s : State) := (s.rbsent, s.rbread, s.rbcnt, s.errstat.getLsbD 4)

/-- What every step of a download but SB7f leaves alone. -/
def stepFrame (s : State) := (downloadFrame s, mismatchRecord s, s.rdyEdge)

theorem stepFrame_busBlind : BusBlind stepFrame := fun _ _ _ _ _ _ => rfl

theorem stepFrame_contention (s : State) : stepFrame (raiseError .contention s) = stepFrame s := by
  simp [stepFrame, downloadFrame, mismatchRecord, BitVec.or_assoc]

theorem stepFrame_format (s : State) : stepFrame (raiseError .format s) = stepFrame s := by
  simp [stepFrame, downloadFrame, mismatchRecord, BitVec.or_assoc]

theorem stepFrame_sampleData (s : State) : stepFrame (sampleData s).2 = stepFrame s := by
  rw [sampleData_state]
  rfl

theorem downloadFrame_recordMismatch (b v : Byte) (s : State) :
    downloadFrame (recordMismatch b v s) = downloadFrame s := by
  simp [downloadFrame, BitVec.or_assoc]

/-- A step of a download keeps the frame, without readback also the mismatch record, and goes where a download can stand. -/
structure DownloadStep (s t : State) : Prop where
  frame : downloadFrame t = downloadFrame s
  record : NoReadback s → mismatchRecord t = mismatchRecord s
  rdyEdge : t.rdyEdge = s.rdyEdge
  track : OnTrack t

theorem DownloadStep.of_frame (h : stepFrame t = stepFrame s) (ht : OnTrack t) : DownloadStep s t :=
  ⟨congrArg (·.1) h, fun _ => congrArg (·.2.1) h, congrArg (·.2.2) h, ht⟩

/-- The labels before the step say nothing of what it keeps. -/
theorem DownloadStep.of_seq {ls : List Label} (h : DownloadStep { s with seq := ls } t) : DownloadStep s t :=
  ⟨h.frame, h.record, h.rdyEdge, h.track⟩

/-! ### The download's own steps -/

/-- The download goes on to a label of its own. -/
theorem DownloadStep.own (hframe : stepFrame u = stepFrame s) (hseq : u.seq = []) (hat : DownloadAt l' u)
    (hl : l'.ofDownload = true := by rfl) : DownloadStep s (goto [l'] u) :=
  .of_frame hframe (.own hl (congrArg (l' :: ·) hseq) hat)

theorem stepDl1_downloadStep (hseq : s.seq = []) : DownloadStep s (stepDl1 s) := by
  unfold stepDl1
  split
  · exact .of_frame (stepFrame_format s) (.ended rfl)
  · next hlen => exact .own rfl hseq ⟨rfl, Nat.le_of_not_lt hlen⟩

theorem stepDi1_downloadStep (hseq : s.seq = []) : DownloadStep s (stepDi1 s) := by
  unfold stepDi1
  split
  · exact .of_frame (stepFrame_format s) (.ended rfl)
  · next hlen =>
    split
    · exact .of_frame (stepFrame_format s) (.ended rfl)
    · exact .own rfl hseq ⟨rfl, Nat.le_of_not_lt hlen⟩

theorem claimBus_owner_dir {o : Owner} {d : Dir} (h : claimBus o d s = .ok u) : u.owner = o ∧ u.dir = d := by
  rw [claimBus_eq] at h
  split at h <;> cases h
  exact ⟨rfl, rfl⟩

/-- DL2: a claim that succeeds holds the bus for output; one that fails is a `ContentionError`. -/
theorem stepDl2_downloadStep (hseq : s.seq = []) (hlen : FrameLength n s) :
    DownloadStep s (claimThen .hostOutput .output (.dl3 n) s) := by
  unfold claimThen
  split
  · next u hu =>
    have hcourse := claimBus_courseFrame hu
    simp only [courseFrame, Prod.mk.injEq] at hcourse
    obtain ⟨-, hseq', -, hplen⟩ := hcourse
    exact .own (stepFrame_busBlind.claim hu) (hseq'.trans hseq)
      ⟨⟨hlen.1.trans hplen.symm, hlen.2⟩, claimBus_owner_dir hu⟩
  · next c hc => cases claimBus_error hc; exact .of_frame (stepFrame_contention s) (.ended rfl)

theorem stepDl5_downloadStep (hseq : s.seq = []) (hindex : FrameIndex n s) (hheld : BusHeld s) :
    DownloadStep s (stepDl5 n s) := by
  unfold stepDl5
  split
  · next hmore => exact .own rfl hseq ⟨⟨hindex.1, hmore⟩, hheld⟩
  · exact .own rfl hseq trivial

theorem micro_downloadStep (hl : l.ofDownload = true) (hseq : s.seq = []) (hat : DownloadAt l s)
    (h : micro l s = .next t) : DownloadStep s t := by
  cases l with
  | dl1 => cases h; exact stepDl1_downloadStep hseq
  | di1 => cases h; exact stepDi1_downloadStep hseq
  | dl2 n => cases h; exact stepDl2_downloadStep hseq hat
  | dl3 n =>
    cases h
    obtain ⟨hlen, hheld⟩ := hat
    exact .own rfl hseq ⟨⟨hlen, Nat.succ_pos _⟩, hheld⟩
  | dl4 n =>
    obtain ⟨b, rfl⟩ := stepDl4_eq_next h
    obtain ⟨hindex, hheld⟩ := hat
    exact .of_frame rfl (.sending (l := .sb1 b) rfl (congrArg ([Label.sb1 b, .dl5 n] ++ ·) hseq) hheld hindex)
  | dl5 n => cases h; exact stepDl5_downloadStep hseq hat.1 hat.2
  | dl6 =>
    cases h
    refine .own (stepFrame_busBlind.afterRelease _) ?_ trivial
    exact (BusBlind.afterRelease (F := State.seq) (fun _ _ _ _ _ _ => rfl) _).trans hseq
  | dl7 => cases h; exact .of_frame rfl (.ended rfl)
  | _ => cases hl

/-! ### The steps of a byte -/

/-- `SendByte` goes on to a step of its own. -/
theorem DownloadStep.sending (hseq : s.seq = [.dl5 n]) (hindex : FrameIndex n s) (hframe : stepFrame u = stepFrame s)
    (hcourse : courseFrame u = courseFrame s) (hat : SendAt l' u) (hl : l'.ofSend = true := by rfl) :
    DownloadStep s (goto [l'] u) := by
  simp only [courseFrame, Prod.mk.injEq] at hcourse
  obtain ⟨-, hseq', hidx, hplen⟩ := hcourse
  refine .of_frame hframe (.sending (n := n) hl (congrArg (l' :: ·) (hseq'.trans hseq)) hat ?_)
  rw [FrameIndex, FrameLength, goto_plen, goto_idx, hplen, hidx]
  exact hindex

section Sending

variable (hseq : s.seq = [.dl5 n]) (hindex : FrameIndex n s)
include hseq hindex

theorem stepSb1_downloadStep (b : Byte) (hheld : BusHeld s) : DownloadStep s (stepSb1 b s) := by
  have hsb1 : stepSb1 b s = goto [.sb2 b] s := if_pos hheld
  rw [hsb1]
  exact .sending hseq hindex rfl rfl hheld

theorem stepSb5_downloadStep (b : Byte) (hheld : BusHeld s) : DownloadStep s (stepSb5 b s) := by
  unfold stepSb5
  split
  · exact .sending hseq hindex rfl rfl hheld
  · split <;> exact .sending hseq hindex rfl rfl hheld

theorem stepSb7_downloadStep (b : Byte) (hheld : BusHeld s) : DownloadStep s (stepSb7 b s) := by
  unfold stepSb7
  split
  · next hread => exact .sending hseq hindex rfl rfl ⟨hheld, hread⟩
  · exact .sending hseq hindex rfl rfl hheld

/-- SB7a, SB7d: the bus, held as the label says, is given back. -/
theorem DownloadStep.release {o : Owner} (hat : ∀ u, u.owner = .none → HasReadback u → SendAt l' u)
    (howner : s.owner = o) (hread : HasReadback s) (hl : l'.ofSend = true := by rfl) :
    DownloadStep s (goto [l'] (afterCall (releaseBus o s) s)) := by
  refine .sending hseq hindex (stepFrame_busBlind.afterRelease o) (afterRelease_courseFrame o) (hat _ ?_ ?_) hl <;>
    rw [releaseBus_eq, if_pos howner]
  · rfl
  · exact hread

/-- SB7b, SB7e: the free bus is claimed. -/
theorem DownloadStep.claim {o : Owner} {d : Dir} (hat : ∀ u, u.owner = o → u.dir = d → HasReadback u → SendAt l' u)
    (howner : s.owner = .none) (hread : HasReadback s) (hl : l'.ofSend = true := by rfl) :
    DownloadStep s (goto [l'] (afterCall (claimBus o d s) s)) := by
  refine .sending hseq hindex (stepFrame_busBlind.afterClaim o d) (afterClaim_courseFrame o d) (hat _ ?_ ?_ ?_) hl <;>
    rw [claimBus_eq, if_pos howner]
  · rfl
  · rfl
  · exact hread

theorem stepSb7c_downloadStep (b : Byte) (howner : s.owner = .peerInput) (hread : HasReadback s) :
    DownloadStep s (stepSb7c b s) := by
  refine .sending hseq hindex (stepFrame_sampleData s) (sampleData_courseFrame s) ?_
  obtain ⟨tr, k, hsample⟩ := exists_sampleData_eq s
  rw [hsample]
  exact ⟨howner, hread⟩

/-- SB7f alone may write the mismatch record, and there is none without readback. -/
theorem stepSb7f_downloadStep (b v : Byte) (hheld : BusHeld s) (hread : HasReadback s) :
    DownloadStep s (stepSb7f b v s) := by
  unfold stepSb7f
  split
  · exact .sending hseq hindex rfl rfl hheld
  · exact ⟨downloadFrame_recordMismatch b v s, fun hno => absurd hno hread.not_noReadback, rfl,
      .sending (l := .sb8) rfl (congrArg (Label.sb8 :: ·) hseq) hheld hindex⟩

theorem micro_send_downloadStep (hl : l.ofSend = true) (hat : SendAt l s) (h : micro l s = .next t) :
    DownloadStep s t := by
  cases l with
  | sb1 b => cases h; exact stepSb1_downloadStep hseq hindex b hat
  | sb2 b => cases h; exact .sending hseq hindex rfl rfl hat
  | sb3 b => cases h; exact .sending hseq hindex rfl rfl hat
  | sb4 b => cases h; exact .sending hseq hindex rfl rfl hat
  | sb5 b => cases h; exact stepSb5_downloadStep hseq hindex b hat
  | sb6 b => cases h; exact .sending hseq hindex rfl rfl hat
  | sb7 b => cases h; exact stepSb7_downloadStep hseq hindex b hat
  | sb7a b => cases h; exact .release hseq hindex (fun _ => .intro) hat.1.1 hat.2
  | sb7b b => cases h; exact .claim hseq hindex (fun _ howner _ => .intro howner) hat.1 hat.2
  | sb7c b => cases h; exact stepSb7c_downloadStep hseq hindex b hat.1 hat.2
  | sb7d b v => cases h; exact .release hseq hindex (fun _ => .intro) hat.1 hat.2
  | sb7e b v => cases h; exact .claim hseq hindex (fun _ howner hdir => .intro ⟨howner, hdir⟩) hat.1 hat.2
  | sb7f b v => cases h; exact stepSb7f_downloadStep hseq hindex b v hat.1 hat.2
  | sb8 => cases h; exact .of_frame rfl (.own (l := .dl5 n) rfl hseq ⟨hindex, hat⟩)
  | _ => cases hl

end Sending

/-! ### A whole download -/

/-- A turn of the engine during a download is a step of it. -/
theorem OnTrack.engineTurn (hs : OnTrack s) (h : Machine.engineTurn s = .next t) : DownloadStep s t := by
  cases hrun : s.run with
  | busy =>
    cases hs with
    | ended hseq =>
      rw [Machine.engineTurn, hrun, hseq] at h
      cases h
      exact .of_frame rfl (.ended hseq)
    | @own l hl hseq hat =>
      rw [engineTurn_at hrun hseq] at h
      exact .of_seq (micro_downloadStep (s := { s with seq := [] }) hl rfl hat h)
    | @sending l n hl hseq hat hindex =>
      rw [engineTurn_at hrun hseq] at h
      exact .of_seq (micro_send_downloadStep (s := { s with seq := [.dl5 n] }) rfl hindex hl hat h)
  | _ => rw [Machine.engineTurn, hrun] at h; cases h; exact .of_frame rfl hs

/-- What the peer does leaves the download where it stands. -/
theorem OnTrack.of_peer (hs : OnTrack s) (h : OnlyPeerActed s t) : OnTrack t := by
  obtain ⟨heq, -, -, -⟩ := h
  rw [heq]
  cases hs with
  | ended hseq => exact .ended hseq
  | own hl hseq hat => exact .own hl hseq hat
  | sending hl hseq hat hindex => exact .sending hl hseq hat hindex

theorem onTrack_accept (hi : i = .dload ∨ i = .dloadi) (s : State) :
    OnTrack (accept (encode i) (startLabels i) (beforeStart i s)) := by
  rcases hi with rfl | rfl
  · exact .own (l := .dl1) rfl rfl trivial
  · exact .own (l := .di1) rfl rfl trivial

/-- What a download of `s` keeps. -/
structure DownloadKeeps (s u : State) : Prop where
  peer : peerOnly u = true
  frame : downloadFrame u = downloadFrame s
  record : NoReadback s → mismatchRecord u = mismatchRecord s
  rdyEdge : s.rdyEdge = true → u.rdyEdge = true
  track : OnTrack u

theorem NoReadback.of_downloadFrame (hframe : downloadFrame t = downloadFrame s) (h : NoReadback s) : NoReadback t := by
  simp only [downloadFrame, Prod.mk.injEq] at hframe
  obtain ⟨-, ⟨-, hstrat, hrben, -⟩, -⟩ := hframe
  rwa [NoReadback, hstrat, hrben]

theorem DownloadKeeps.letEnvAct (hu : DownloadKeeps s u) (h : Machine.letEnvAct u = .next t) : DownloadKeeps s t := by
  obtain ⟨hp, hframe, hrecord, hrdy, htrack⟩ := hu
  obtain ⟨heq, hack, hstays, htr, henv⟩ := peerTouchesOnlyItsOwnState u t hp h
  refine ⟨peerOnly_of_env_tail henv hp, ?_, fun hno => ?_, hstays ∘ hrdy, htrack.of_peer ⟨heq, hack, hstays, htr⟩⟩
  · rw [heq]
    exact hframe
  · rw [heq]
    exact hrecord hno

theorem DownloadKeeps.engineTurn (hu : DownloadKeeps s u) (h : Machine.engineTurn u = .next t) : DownloadKeeps s t := by
  obtain ⟨hp, hframe, hrecord, hrdy, htrack⟩ := hu
  obtain ⟨hkept, hrecord', hrdy', htrack'⟩ := htrack.engineTurn h
  exact ⟨by rwa [peerOnly, engineTurn_env h], hkept.trans hframe,
    fun hno => (hrecord' (hno.of_downloadFrame hframe)).trans (hrecord hno),
    by rwa [hrdy'], htrack'⟩

theorem exec_downloadKeeps (hi : i = .dload ∨ i = .dloadi) (hp : peerOnly s = true) (h : exec i s = .next t) :
    DownloadKeeps s t := by
  refine exec_keeps (P := DownloadKeeps s) (fun _ _ => DownloadKeeps.letEnvAct) (fun _ _ => DownloadKeeps.engineTurn)
    (fun _ => ?_) h
  have htrack := onTrack_accept hi s
  rcases hi with rfl | rfl <;> exact ⟨hp, rfl, fun _ => rfl, id, htrack⟩

/-- Settles O54: every step of a download keeps the frame, none but a readback's comparison the mismatch record. -/
theorem frameOfTheDownloads : Obligations.FrameOfTheDownloads := by
  intro s t i hi hp h
  obtain ⟨-, hframe, hrecord, hrdy, -⟩ := exec_downloadKeeps hi hp h
  simp only [downloadFrame, Prod.mk.injEq] at hframe
  obtain ⟨⟨hdin, hload, hexec, hlen⟩, ⟨hifsm, hstrat, hrben, hdrain, hitkn⟩, ⟨hinbuf, hhost, hpay, hplen⟩, herr⟩ := hframe
  refine ⟨hdin, hload, hexec, hlen, hifsm, hstrat, hrben, hdrain, hitkn, hinbuf, hhost, readPay_congr hpay hplen, hrdy,
    herr, fun hno => ?_⟩
  have hkept := hrecord hno
  simp only [mismatchRecord, Prod.mk.injEq] at hkept
  exact hkept

end Sys2Proof.Machine
end

section
/-! The rules of the download sequencer around the frame: the registers that name its fields (spec 43_download.md R171 to
R173), its bytes one by one (R175), and what ends a download before its first byte (R176, R179, R180). -/

namespace Sys2Proof.Machine

variable {l : Label} {s s1 s2 t p e : State} {i : Instr} {k : Nat}

/-! ### The operand registers -/

/-- Settles O20: each micro-step is the write itself. -/
theorem operandRegisterCommands : Obligations.OperandRegisterCommands := by
  intro s x hready hp
  obtain ⟨s1, hs1, -⟩ := exists_letEnvAct_owner hp
  refine ⟨s1, hs1, ?_, ?_, ?_⟩ <;> exact exec_of_micro rfl rfl (Bool.and_false _) hready hp hs1 rfl nofun

/-! ### The frame, byte by byte -/

/-- The five bytes before the payload. -/
def frameHead (s : State) : List Byte :=
  [0xAA#8, (encodeWord s.loadAddr).1, (encodeWord s.loadAddr).2,
    (encodeWord (BitVec.ofNat 16 s.plen)).1, (encodeWord (BitVec.ofNat 16 s.plen)).2]

/-- The two bytes after the payload. -/
def frameTail (s : State) : List Byte := [(encodeWord s.execAddr).1, (encodeWord s.execAddr).2]

theorem wireFrame_eq (s : State) : wireFrame s = frameHead s ++ payloadBytes s ++ frameTail s := rfl

@[simp] theorem length_payloadBytes (s : State) : (payloadBytes s).length = s.plen := by simp [payloadBytes]

@[simp] theorem length_frameHead (s : State) : (frameHead s).length = 5 := rfl

@[simp] theorem length_wireFrame (s : State) : (wireFrame s).length = s.plen + 7 := by
  simp [wireFrame_eq, frameTail]
  omega

theorem wireFrame_head (hk : k < 5) : (wireFrame s)[k]? = (frameHead s)[k]? := by
  rw [wireFrame_eq, List.append_assoc, List.getElem?_append_left hk]

theorem wireFrame_payload (hk : k < s.plen) : (wireFrame s)[k + 5]? = some (s.pay.byteAt k) := by
  rw [wireFrame_eq, List.append_assoc, List.getElem?_append_right (by simp), length_frameHead, Nat.add_sub_cancel,
    List.getElem?_append_left (by simpa using hk)]
  simp [payloadBytes, hk]

theorem wireFrame_tail (s : State) (k : Nat) : (wireFrame s)[s.plen + 5 + k]? = (frameTail s)[k]? := by
  have hlen : (frameHead s ++ payloadBytes s).length = s.plen + 5 := by simp [Nat.add_comm]
  rw [wireFrame_eq, List.getElem?_append_right (by omega), hlen, Nat.add_sub_cancel_left]

theorem frameByte_head (hk : k < 5) : ∃ b, frameByte s.plen k s = .ok b ∧ (frameHead s)[k]? = some b := by
  interval_cases k <;> exact ⟨_, rfl, rfl⟩

theorem frameByte_payload (hk : k < s.plen) : frameByte s.plen (k + 5) s = .ok (s.pay.byteAt k) := by
  unfold frameByte
  rw [if_neg (by omega), if_neg (by omega), if_neg (by omega), if_neg (by omega), if_neg (by omega),
    if_pos (by omega), Nat.add_sub_cancel, readPay_of_lt hk]

theorem frameByte_tail (hk : k < 2) : ∃ b, frameByte s.plen (s.plen + 5 + k) s = .ok b ∧ (frameTail s)[k]? = some b := by
  unfold frameByte
  rw [if_neg (by omega), if_neg (by omega), if_neg (by omega), if_neg (by omega), if_neg (by omega), if_neg (by omega)]
  interval_cases k
  · exact ⟨_, if_pos rfl, rfl⟩
  · exact ⟨_, (if_neg (by omega)).trans (if_pos rfl), rfl⟩

/-- `FrameByte` answers the bytes of the wire frame (R174, R175). -/
theorem frameByte_eq_wireFrame (hk : k < s.plen + 7) :
    ∃ b, frameByte s.plen k s = .ok b ∧ (wireFrame s)[k]? = some b := by
  by_cases hhead : k < 5
  · rw [wireFrame_head hhead]
    exact frameByte_head hhead
  by_cases hpay : k < s.plen + 5
  · obtain ⟨j, rfl⟩ := Nat.exists_eq_add_of_le' (Nat.le_of_not_lt hhead)
    exact ⟨_, frameByte_payload (by omega), wireFrame_payload (by omega)⟩
  · obtain ⟨j, rfl⟩ := Nat.exists_eq_add_of_le (Nat.le_of_not_lt hpay)
    rw [wireFrame_tail]
    exact frameByte_tail (by omega)

theorem lt_of_wireFrame_getElem? {b : Byte} (hb : (wireFrame s)[k]? = some b) : k < s.plen + 7 := by
  simpa using (List.getElem?_eq_some_iff.1 hb).1

/-- Settles O39: the head, the payload and the tail of the frame, each at its positions. -/
theorem frameBytesAreTheWireFrame : Obligations.FrameBytesAreTheWireFrame :=
  fun _ _ _ hk => frameByte_eq_wireFrame hk

/-! ### The checks before the claim -/

theorem stepDl1_of_long (h : 65535 < s.plen) : stepDl1 s = raiseError .format s := if_pos h

theorem stepDl1_of_short (h : s.plen ≤ 65535) : stepDl1 s = goto [.dl2 s.plen] s := if_neg (Nat.not_lt.2 h)

theorem stepDi1_of_wrong (h : 65535 < s.plen ∨ s.length.toNat ≠ s.plen) : stepDi1 s = raiseError .format s := by
  unfold stepDi1
  split
  · rfl
  · next hlen => exact if_pos (h.resolve_left hlen)

/-- A declared length is below 65536, so a right one passes both checks (R180). -/
theorem stepDi1_of_right (h : s.length.toNat = s.plen) : stepDi1 s = goto [.dl2 s.plen] s := by
  have hlt := s.length.isLt
  rw [stepDi1, if_neg (by omega), if_neg (not_not.2 h)]

/-- Settles O46: DL1 and DI1 test what the peer leaves alone, and the error is theirs. -/
theorem formatErrorsComeBeforeTheClaim : Obligations.FormatErrorsComeBeforeTheClaim := by
  intro s hready hp
  obtain ⟨s1, hs1, -⟩ := exists_letEnvAct_owner hp
  have hpeer : s1.plen = s.plen ∧ s1.length = s.length := by
    rw [(peerTouchesOnlyItsOwnState s s1 hp hs1).1]
    exact ⟨rfl, rfl⟩
  rw [← hpeer.1, ← hpeer.2]
  refine ⟨s1, hs1, fun hlong => ?_, fun hwrong => ?_⟩
  · exact exec_of_micro (l := .dl1) rfl rfl (Bool.and_false _) hready hp hs1
      (congrArg Host.Outcome.next (stepDl1_of_long (s := accept (encode .dload) [] s1) hlong)) nofun
  · exact exec_of_micro (l := .di1) rfl rfl (Bool.and_false _) hready hp hs1
      (congrArg Host.Outcome.next (stepDi1_of_wrong (s := accept (encode .dloadi) [] s1) hwrong)) nofun

/-- A download whose checks pass: the payload can be framed, and for DLOADI the declared length is its length. -/
def PassesChecks (i : Instr) (s : State) : Prop :=
  (i = .dload ∧ s.plen ≤ 65535) ∨ (i = .dloadi ∧ s.length.toNat = s.plen)

theorem PassesChecks.plen_le (h : PassesChecks i s) : s.plen ≤ 65535 := by
  rcases h with ⟨-, h⟩ | ⟨-, h⟩
  · exact h
  · have hlt := s.length.isLt
    omega

theorem PassesChecks.beforeStart (h : PassesChecks i s) : beforeStart i s = s := by
  rcases h with ⟨rfl, -⟩ | ⟨rfl, -⟩ <;> rfl

/-- The first turn of a download whose checks pass. -/
theorem PassesChecks.turn (h : PassesChecks i s) (hp : peerOnly s = true) :
    Turn (beside s (accept (encode i) (startLabels i) s)) (beside (peerAfter 1 s) (accept (encode i) [.dl2 s.plen] s)) := by
  refine ⟨rfl, ?_, hostLooks_peerOnly hp, (microStep_of_letEnvAct (letEnvAct_beside _ hp)).trans ?_⟩
  · rcases h with ⟨rfl, -⟩ | ⟨rfl, -⟩ <;> exact Bool.and_false _
  · rcases h with ⟨rfl, h⟩ | ⟨rfl, h⟩
    · exact congrArg Host.Outcome.next (stepDl1_of_short (s := beside (peerAfter 1 s) (accept (encode .dload) [] s)) h)
    · exact congrArg Host.Outcome.next (stepDi1_of_right (s := beside (peerAfter 1 s) (accept (encode .dloadi) [] s)) h)

/-! ### The bus owned by another -/

theorem claimThen_of_owned {o : Owner} {d : Dir} {next : Label} (h : s.owner ≠ .none) :
    claimThen o d next s = raiseError .contention s := by
  rw [claimThen, claimBus, if_neg h]

/-- The turn of a claim that finds the bus owned (R179, R204). -/
theorem turns_contention {o : Owner} {d : Dir} {next : Label} (hp : peerOnly p = true) (hrun : e.run = .busy)
    (hseq : e.seq = [l]) (howned : e.owner ≠ .none) (hclaim : ∀ u, micro l u = .next (claimThen o d next u))
    (hl : l.neverWaits = true := by rfl) : Turns (beside p e) (beside (peerAfter 1 p) (raiseError .contention e)) := by
  refine .step hp hrun hseq ?_ hl
  rw [hclaim, claimThen_of_owned (s := beside (peerAfter 1 p) { e with seq := [] }) howned]
  rfl

theorem peerAfter_eq_beside (n : Nat) (hp : peerOnly s = true) : peerAfter n s = beside (peerAfter n s) s :=
  (peerAfter_acted n hp).1.1

/-- A command stopped by an owned bus at its second turn: the owner keeps the bus. -/
theorem exec_of_contention (hready : s.run = .ready) (hp : peerOnly s = true)
    (h : Turns (accept (encode i) (startLabels i) (beforeStart i s))
      (beside (peerAfter 2 s) (raiseError .contention (accept (encode i) [] (beforeStart i s))))) :
    exec i s = .next { beforeStart i (peerAfter 2 s) with
      cur := encode i, res := 1#3, errstat := (peerAfter 2 s).errstat ||| 0x02#8, run := .ready, seq := [] } := by
  rw [exec_of_turns hready hp h (.inl nofun), peerAfter_eq_beside 2 hp]
  cases i <;> rfl

theorem exec_of_download_contention (h : PassesChecks i s) (hready : s.run = .ready) (hp : peerOnly s = true)
    (howned : s.owner ≠ .none) :
    exec i s = .next { peerAfter 2 s with
      cur := encode i, res := 1#3, errstat := (peerAfter 2 s).errstat ||| 0x02#8, run := .ready, seq := [] } := by
  have hclaim : Turns (beside (peerAfter 1 s) (accept (encode i) [.dl2 s.plen] s))
      (beside (peerAfter 2 s) (raiseError .contention (accept (encode i) [.dl2 s.plen] s))) := by
    rw [peerAfter_add 1 1 s]
    exact turns_contention (peerOnly_peerAfter 1 hp) rfl rfl howned (fun _ => rfl)
  have hturns := hclaim.head (h.turn hp)
  rw [exec_of_contention hready hp (by rw [h.beforeStart]; exact hturns)]
  rcases h with ⟨rfl, -⟩ | ⟨rfl, -⟩ <;> rfl

theorem turns_dr1_ready (hp : peerOnly s = true) (hirdy : (peerAfter 1 s).irdy = .active) :
    Turns (beside s (accept (encode .drain) [.dr1] { s with drainCnt := 0 }))
      (beside (peerAfter 1 s) (accept (encode .drain) [.dr2] { s with drainCnt := 0 })) := by
  refine .step hp rfl rfl (congrArg Host.Outcome.next (if_neg ?_))
  change ¬ (peerAfter 1 s).irdy = .inactive
  simp [hirdy]

/-- Settles O47: after the first test, whatever it is, comes the claim, and the peer leaves the owner alone. -/
theorem ownedBusStopsDownloadAndDrain : Obligations.OwnedBusStopsDownloadAndDrain := by
  intro s s1 s2 hready hp howned hs1 hs2
  have hp1 := peerOnly_peerAfter 1 hp
  rw [letEnvAct_eq_peerAfter hp] at hs1
  cases hs1
  rw [letEnvAct_eq_peerAfter hp1, ← peerAfter_add] at hs2
  cases hs2
  refine ⟨fun hlen => ?_, fun hlen => ?_, fun hirdy => ?_⟩
  · exact exec_of_download_contention (.inl ⟨rfl, hlen⟩) hready hp howned
  · exact exec_of_download_contention (.inr ⟨rfl, hlen⟩) hready hp howned
  · have hclaim := turns_contention (e := accept (encode .drain) [.dr2] { s with drainCnt := 0 }) hp1 rfl rfl howned
      (fun _ => rfl)
    rw [← peerAfter_add] at hclaim
    exact exec_of_contention (i := .drain) hready hp ((turns_dr1_ready hp hirdy).trans hclaim)

end Sys2Proof.Machine
end

section
/-! DLOADI is DLOAD once its check has passed (spec 43_download.md R180): no rule reads `CUR`, so two runs that differ in it
alone stay so, and a download whose checks pass always answers. -/

namespace Sys2Proof.Machine

variable {l : Label} {s t : State} {i : Instr} {w : CmdWord}

/-! ### No rule reads `CUR` -/

/-- The same state with another command word in `CUR`. -/
def withCur (w : CmdWord) (s : State) : State := { s with cur := w }

/-- A test that reads no `CUR` chooses alike. -/
theorem ite_eq_map {α β : Type} {f : α → β} {p : Prop} [Decidable p] {a b : α} {a' b' : β} (ha : a' = f a)
    (hb : b' = f b) : (if p then a' else b') = f (if p then a else b) := by
  split
  · exact ha
  · exact hb

theorem claimBus_withCur (o : Owner) (d : Dir) :
    claimBus o d (withCur w s) = (claimBus o d s).map (withCur w) := by
  rw [claimBus_eq, claimBus_eq]
  exact ite_eq_map rfl rfl

theorem releaseBus_withCur (o : Owner) : releaseBus o (withCur w s) = (releaseBus o s).map (withCur w) := by
  rw [releaseBus_eq, releaseBus_eq]
  exact ite_eq_map rfl rfl

theorem completeOrRaise_withCur (r : Except Cause State) :
    completeOrRaise (r.map (withCur w)) (withCur w s) = withCur w (completeOrRaise r s) := by
  cases r <;> rfl

theorem afterCall_withCur (r : Except Cause State) :
    afterCall (r.map (withCur w)) (withCur w s) = withCur w (afterCall r s) := by
  cases r <;> rfl

theorem afterRelease_withCur (o : Owner) :
    afterCall (releaseBus o (withCur w s)) (withCur w s) = withCur w (afterCall (releaseBus o s) s) := by
  rw [releaseBus_withCur, afterCall_withCur]

theorem afterClaim_withCur (o : Owner) (d : Dir) :
    afterCall (claimBus o d (withCur w s)) (withCur w s) = withCur w (afterCall (claimBus o d s) s) := by
  rw [claimBus_withCur, afterCall_withCur]

theorem claimThen_withCur (o : Owner) (d : Dir) (next : Label) :
    claimThen o d next (withCur w s) = withCur w (claimThen o d next s) := by
  rw [claimThen, claimThen, claimBus_withCur]
  cases claimBus o d s <;> rfl

theorem sampleData_withCur : sampleData (withCur w s) = ((sampleData s).1, withCur w (sampleData s).2) :=
  ite_eq_map (f := fun r : Byte × State => (r.1, withCur w r.2)) rfl rfl

theorem stepSb5_withCur (b : Byte) : stepSb5 b (withCur w s) = withCur w (stepSb5 b s) := by
  have hstrat : (withCur w s).strat = s.strat := rfl
  unfold stepSb5
  rw [hstrat]
  split
  · rfl
  · exact ite_eq_map rfl rfl

theorem stepSb7f_withCur (b v : Byte) : stepSb7f b v (withCur w s) = withCur w (stepSb7f b v s) :=
  congrArg (goto [.sb8]) (ite_eq_map (f := withCur w) (a := s) (b := recordMismatch b v s) rfl rfl)

theorem stepDl4_withCur {n : Nat} (h : stepDl4 n s = .next t) : stepDl4 n (withCur w s) = .next (withCur w t) := by
  have hbyte : frameByte n (withCur w s).idx.toNat (withCur w s) = frameByte n s.idx.toNat s := rfl
  unfold stepDl4 at h ⊢
  rw [hbyte]
  split at h
  · cases h; rfl
  · cases h

/-- Every micro-step is the same whatever word stands in `CUR`. -/
theorem micro_withCur (h : micro l s = .next t) : micro l (withCur w s) = .next (withCur w t) := by
  cases l with
  | dl4 n => exact stepDl4_withCur h
  | claim o d => cases h; rw [micro_claim, claimBus_withCur, completeOrRaise_withCur]
  | release o => cases h; rw [micro_release, releaseBus_withCur, completeOrRaise_withCur]
  | stratack => cases h; exact congrArg Host.Outcome.next (ite_eq_map rfl rfl)
  | sb1 b => cases h; exact congrArg Host.Outcome.next (ite_eq_map rfl rfl)
  | sb5 b => cases h; exact congrArg Host.Outcome.next (stepSb5_withCur b)
  | sb7 b => cases h; exact congrArg Host.Outcome.next (ite_eq_map rfl rfl)
  | sb7a b => cases h; exact congrArg (fun u => Host.Outcome.next (goto _ u)) (afterRelease_withCur _)
  | sb7b b => cases h; exact congrArg (fun u => Host.Outcome.next (goto _ u)) (afterClaim_withCur _ _)
  | sb7c b => cases h; exact congrArg (fun r => Host.Outcome.next (goto [.sb7d b r.1] r.2)) sampleData_withCur
  | sb7d b v => cases h; exact congrArg (fun u => Host.Outcome.next (goto _ u)) (afterRelease_withCur _)
  | sb7e b v => cases h; exact congrArg (fun u => Host.Outcome.next (goto _ u)) (afterClaim_withCur _ _)
  | sb7f b v => cases h; exact congrArg Host.Outcome.next (stepSb7f_withCur b v)
  | recv => cases h; exact congrArg Host.Outcome.next (ite_eq_map rfl (ite_eq_map rfl rfl))
  | rb2 =>
    cases h
    exact congrArg (fun r => Host.Outcome.next
      (goto [.rb3] (appendInbuf r.1 { r.2 with din := r.1, rdyEdge := false }))) sampleData_withCur
  | dl1 => cases h; exact congrArg Host.Outcome.next (ite_eq_map rfl rfl)
  | di1 => cases h; exact congrArg Host.Outcome.next (ite_eq_map rfl (ite_eq_map rfl rfl))
  | dl2 n => cases h; exact congrArg Host.Outcome.next (claimThen_withCur _ _ _)
  | dl6 => cases h; exact congrArg (fun u => Host.Outcome.next (goto _ u)) (afterRelease_withCur _)
  | dr1 => cases h; exact congrArg Host.Outcome.next (ite_eq_map rfl rfl)
  | dr2 => cases h; exact congrArg Host.Outcome.next (claimThen_withCur _ _ _)
  | dr6 => cases h; exact congrArg (fun u => Host.Outcome.next (complete u)) (afterRelease_withCur _)
  | _ => cases h; rfl

theorem engineTurn_withCur (h : engineTurn s = .next t) : engineTurn (withCur w s) = .next (withCur w t) := by
  unfold engineTurn at h
  split at h
  · next l rest hrun hseq =>
    rw [engineTurn_at (s := withCur w s) hrun hseq]
    exact micro_withCur h
  · next hother =>
    cases h
    unfold engineTurn
    split
    · next l rest hrun hseq => exact absurd hseq (hother l rest hrun)
    · rfl

theorem letEnvAct_withCur (hp : peerOnly s = true) : letEnvAct (withCur w s) = .next (withCur w (peerAfter 1 s)) := by
  have h := letEnvAct_beside (withCur w s) hp
  rw [peerAfter_eq_beside 1 hp]
  exact h

/-! ### A download always answers -/

/-- Of all micro-steps only DL4 could fail to answer. -/
theorem exists_micro (hl : ∀ n, l ≠ .dl4 n) (s : State) : ∃ t, micro l s = .next t := by
  cases l with
  | dl4 n => exact absurd rfl (hl n)
  | _ => exact ⟨_, rfl⟩

theorem stepDl4_of_frameByte {n : Nat} {b : Byte} (h : frameByte n s.idx.toNat s = .ok b) :
    stepDl4 n s = .next (goto [.sb1 b, .dl5 n] s) := by
  rw [stepDl4, h]

theorem exists_stepDl4 {n : Nat} (h : FrameIndex n s) : ∃ t, stepDl4 n s = .next t := by
  obtain ⟨⟨rfl, -⟩, hidx⟩ := h
  obtain ⟨b, hb⟩ := exists_frameByte_eq_ok hidx
  exact ⟨_, stepDl4_of_frameByte hb⟩

theorem OnTrack.exists_engineTurn (hs : OnTrack s) : ∃ t, Machine.engineTurn s = .next t := by
  unfold Machine.engineTurn
  split
  · next l rest _ hseq =>
    by_cases hdl4 : ∃ n, l = .dl4 n
    · obtain ⟨n, rfl⟩ := hdl4
      cases hs with
      | ended h => rw [h] at hseq; cases hseq
      | own _ h hat => rw [h] at hseq; cases hseq; exact exists_stepDl4 (s := { s with seq := [] }) hat.1
      | sending hl h _ _ => rw [h] at hseq; cases hseq; cases hl
    · exact exists_micro (fun n hn => hdl4 ⟨n, hn⟩) _
  · exact ⟨s, rfl⟩

/-- A run of a download answers, and alike whatever word stands in `CUR`. -/
theorem OnTrack.runFor_withCur (hs : OnTrack s) (hp : peerOnly s = true) (k : Nat) :
    ∃ t, runFor k s = .next t ∧ runFor k (withCur w s) = .next (withCur w t) := by
  induction k generalizing s with
  | zero => exact ⟨s, rfl, rfl⟩
  | succ k ih =>
    by_cases hstop : Stopped s
    · exact ⟨s, hstop.runFor _, Stopped.runFor (s := withCur w s) hstop _⟩
    obtain ⟨hrun, hleft⟩ := not_or.1 hstop
    have hrun := not_not.1 hrun
    have hleft := Bool.eq_false_iff.2 hleft
    have hlook := hostLooks_peerOnly hp
    have hpeer := hs.of_peer (peerAfter_acted 1 hp).1
    obtain ⟨v, hv⟩ := hpeer.exists_engineTurn
    have hpv : peerOnly v = true := by rw [peerOnly, engineTurn_env hv]; exact peerOnly_peerAfter 1 hp
    obtain ⟨t, ht, htw⟩ := ih (hpeer.engineTurn hv).track hpv
    refine ⟨t, ?_, ?_⟩
    · rw [runFor_turn hrun hleft hlook ((microStep_of_letEnvAct (letEnvAct_eq_peerAfter hp)).trans hv), ht]
    · rw [runFor_turn (s := withCur w s) hrun hleft hlook
        ((microStep_of_letEnvAct (letEnvAct_withCur hp)).trans (engineTurn_withCur hv)), htw]

/-- A download whose checks pass is a run from DL2. -/
theorem PassesChecks.exec_eq_runFor (h : PassesChecks i s) (hready : s.run = .ready) (hp : peerOnly s = true) :
    exec i s = runFor (turnsFor s - 1) (beside (peerAfter 1 s) (accept (encode i) [.dl2 s.plen] s)) := by
  have hfuel : turnsFor s = turnsFor s - 1 + 1 := by unfold turnsFor; omega
  obtain ⟨hrun, hleft, hlook, hstep⟩ := h.turn hp
  calc exec i s = runFor (turnsFor s) (accept (encode i) (startLabels i) s) := by
        rw [exec_eq, h.beforeStart]
        exact if_pos hready
    _ = _ := by rw [hfuel]; exact runFor_turn hrun hleft hlook hstep

/-- Settles O45: from DL2 on the two commands differ in `CUR` alone, which no rule reads. -/
theorem checkedDownloadIsTheDownload : Obligations.CheckedDownloadIsTheDownload := by
  intro s hready hp hlen
  have hright : PassesChecks .dloadi s := .inr ⟨rfl, hlen⟩
  have hshort : PassesChecks .dload s := .inl ⟨rfl, hright.plen_le⟩
  have htrack : OnTrack (beside (peerAfter 1 s) (accept (encode .dload) [.dl2 s.plen] s)) :=
    .own (l := .dl2 s.plen) rfl rfl ⟨rfl, hright.plen_le⟩
  obtain ⟨t, ht, htw⟩ := htrack.runFor_withCur (w := encode .dloadi) (peerOnly_peerAfter 1 hp) (turnsFor s - 1)
  exact ⟨t, (hshort.exec_eq_runFor hready hp).trans ht, (hright.exec_eq_runFor hready hp).trans htw⟩

end Sys2Proof.Machine
end

section
/-! A download turn by turn (spec 43_download.md R177), whatever its sends do: the claim, the loop at DL4 and DL5, the
release; and what the trace records on the way. -/

namespace Sys2Proof.Machine

variable {s p q e e' : State} {i : Instr} {b : Byte} {k m n : Nat} {evs evs' : List TraceEvent}

/-! ### What is recorded -/

theorem applyEvent_trace_grows {ev : Event} (hev : ev.ofPeer = true) (h : applyEvent ev p = .next q) :
    p.trace <+: q.trace := by
  cases ev with
  | otkn v => cases h; unfold driveOtkn; split <;> [exact List.prefix_rfl; exact List.prefix_append _ _]
  | irdy v => cases h; unfold driveIrdy; split <;> [exact List.prefix_rfl; exact List.prefix_append _ _]
  | pdata b => cases h; exact List.prefix_rfl
  | heartbeat => cases h; exact List.prefix_append _ _
  | _ => cases hev

theorem peerAfter_trace_grows (n : Nat) (hp : peerOnly p = true) : p.trace <+: (peerAfter n p).trace := by
  induction n generalizing p with
  | zero => exact List.prefix_rfl
  | succ n ih =>
    have hone : p.trace <+: (peerAfter 1 p).trace := by
      have hdue := List.all_eq_true.1 (due_ofPeer hp)
      exact applyEvents_keeps (P := fun u => p.trace <+: u.trace)
        (fun ev hev u v hu huv => hu.trans (applyEvent_trace_grows (hdue ev hev) huv)) { p with env := p.env.tail } _
        List.prefix_rfl ((letEnvAct_eq_due p).symm.trans (letEnvAct_eq_peerAfter hp))
    rw [Nat.add_comm, peerAfter_add]
    exact hone.trans (ih (peerOnly_peerAfter 1 hp))

/-- Beside `p` only the peer acts on, and since `s` the trace has grown by the engine's events `evs` and the peer's. -/
structure Recorded (s : State) (evs : List TraceEvent) (p : State) : Prop where
  peer : peerOnly p = true
  grows : s.trace <+: p.trace
  trace : engineTrace p.trace = engineTrace s.trace ++ evs

theorem Recorded.start (hp : peerOnly s = true) : Recorded s [] s := ⟨hp, List.prefix_rfl, (List.append_nil _).symm⟩

theorem Recorded.peerAfter (h : Recorded s evs p) (n : Nat) : Recorded s evs (peerAfter n p) :=
  ⟨peerOnly_peerAfter n h.peer, h.grows.trans (peerAfter_trace_grows n h.peer),
    (engineTrace_peerAfter n h.peer).trans h.trace⟩

theorem Recorded.emit (h : Recorded s evs p) {ev : TraceEvent} (hev : ev.ofEngine = true := by rfl) :
    Recorded s (evs ++ [ev]) (emit ev p) :=
  ⟨h.peer, h.grows.trans (List.prefix_append _ _), by rw [engineTrace_emit_engine hev, h.trace, List.append_assoc]⟩

theorem Recorded.armed (h : Recorded s evs p) (b : Byte) : Recorded s (evs ++ [.drove b]) (peerArmed b p) := by
  obtain ⟨hpeer, hgrows, htrace⟩ := ((h.peerAfter 2).emit (ev := .drove b)).peerAfter 1
  exact ⟨hpeer, hgrows, htrace⟩

theorem Recorded.offered (h : Recorded s evs p) : Recorded s (evs ++ [.asserted .ordy]) (peerOffered p) :=
  (h.peerAfter 1).emit

theorem Recorded.taken (h : Recorded s evs p) (b : Byte) (m : Nat) :
    Recorded s (evs ++ byteTrace b) (peerTaken b m p) := by
  have htaken := (((h.armed b).offered.peerAfter m).peerAfter 1).emit (ev := .deasserted .ordy)
  rwa [List.append_assoc, List.append_assoc] at htaken

theorem Recorded.sent (h : Recorded s evs p) (b : Byte) (m : Nat) : Recorded s (evs ++ byteTrace b) (peerSent b m p) :=
  (h.taken b m).peerAfter 2

/-! ### The claim -/

theorem busFree_of_arbiterOk (h : arbiterOk s = true) (howner : s.owner = .none) : busFree s = s := by
  obtain ⟨⟨hdir, hcsho⟩, hcspi⟩ := (arbiterOk_none howner).1 h
  rw [busFree, ← howner, ← hdir, ← hcsho]
  exact congrArg (fun v => { s with cspi := v }) (hcsho.trans hcspi.symm)

/-- What stands beside the engine after DL1 or DI1, and DL2, which claims the bus. -/
def peerClaimed (p : State) : State := emit (.asserted .csho) (emit (.direction .output) (peerAfter 2 p))

theorem peerOnly_peerClaimed (hp : peerOnly p = true) : peerOnly (peerClaimed p) = true := by
  rw [peerClaimed, peerOnly_emit, peerOnly_emit]
  exact peerOnly_peerAfter 2 hp

/-- When the engine comes to DL4 for the first byte. -/
def peerStarted (p : State) : State := peerAfter 1 (peerClaimed p)

/-- The engine's events of the claim (spec 40_arbiter.md R102). -/
def claimTrace : List TraceEvent := [.direction .output, .asserted .csho]

/-- The engine's events of the release (spec 40_arbiter.md R107). -/
def releaseTrace : List TraceEvent := [.deasserted .csho, .direction .input]

theorem recorded_peerStarted (hp : peerOnly s = true) : Recorded s claimTrace (peerStarted s) :=
  (((Recorded.start hp).peerAfter 2).emit.emit).peerAfter 1

theorem samePeer_emit (ev : TraceEvent) (p : State) : SamePeer p (emit ev p) := ⟨rfl, rfl, rfl, rfl⟩

/-- The peer has gone through 4 boundaries when the first byte is sent. -/
theorem samePeer_peerStarted (hp : peerOnly s = true) : SamePeer (peerAfter 4 s) (peerAfter 1 (peerStarted s)) := by
  have hclaimed : SamePeer (peerAfter 2 s) (peerClaimed s) := (samePeer_emit _ _).trans (samePeer_emit _ _)
  have hstarted := hclaimed.peerAfter (peerOnly_peerAfter 2 hp) 2
  rwa [← peerAfter_add, peerAfter_add 1 1 (peerClaimed s)] at hstarted

/-- The engine when it comes to DL4 for the first byte. -/
def begun (i : Instr) (s : State) : State :=
  { heldForOutput (accept (encode i) [] s) with idx := 0#17, seq := [.dl4 s.plen] }

theorem micro_dl2 (n : Nat) (p e : State) : micro (.dl2 n) (beside p { busFree e with seq := [] }) =
    .next (beside (emit (.asserted .csho) (emit (.direction .output) p)) { heldForOutput e with seq := [.dl3 n] }) := by
  unfold beside heldForOutput busFree
  rfl

/-- DL1 or DI1, DL2 and DL3 of a download whose checks pass and that finds the bus free. -/
theorem turns_begun (h : PassesChecks i s) (hp : peerOnly s = true) (howner : s.owner = .none)
    (harb : arbiterOk s = true) :
    Turns (beside s (accept (encode i) (startLabels i) s)) (beside (peerStarted s) (begun i s)) := by
  have hfree : accept (encode i) [.dl2 s.plen] s = { busFree (accept (encode i) [] s) with seq := [.dl2 s.plen] } := by
    rw [busFree_of_arbiterOk (s := accept (encode i) [] s) harb howner]
    rfl
  have hclaim : Turns (beside (peerAfter 1 s) (accept (encode i) [.dl2 s.plen] s))
      (beside (peerClaimed s) { heldForOutput (accept (encode i) [] s) with seq := [.dl3 s.plen] }) := by
    rw [hfree, peerClaimed, peerAfter_add 1 1 s]
    exact .step (peerOnly_peerAfter 1 hp) rfl rfl (micro_dl2 s.plen _ _)
  have hindex : Turns (beside (peerClaimed s) { heldForOutput (accept (encode i) [] s) with seq := [.dl3 s.plen] })
      (beside (peerStarted s) (begun i s)) := .step (peerOnly_peerClaimed hp) rfl rfl rfl
  exact (hclaim.trans hindex).head (h.turn hp)

/-! ### The loop -/

/-- What the loop of a download leaves alone in the engine. -/
def loopFrame (e : State) :=
  ((e.run, e.cur, e.strat, e.rben), (e.owner, e.dir, e.csho, e.cspi), (e.loadAddr, e.execAddr, e.pay, e.plen))

/-- The engine of a download of `s` at DL4, or at DL6 after the last byte, `k` bytes having been sent. -/
structure Sending (i : Instr) (s : State) (k : Nat) (e : State) : Prop where
  frame : loopFrame e = loopFrame (heldForOutput (accept (encode i) [] s))
  idx : e.idx.toNat = k
  seq : e.seq = [if k < s.plen + 7 then .dl4 s.plen else .dl6]
  idle : 0 < k → e.ordy = .inactive ∧ e.ofsm = .idle

theorem sending_begun (i : Instr) (s : State) : Sending i s 0 (begun i s) :=
  ⟨rfl, rfl, by rw [if_pos (Nat.succ_pos _)]; rfl, fun h => absurd h (Nat.lt_irrefl 0)⟩

theorem Sending.run (h : Sending i s k e) : e.run = .busy := congrArg (·.1.1) h.frame
theorem Sending.cur (h : Sending i s k e) : e.cur = encode i := congrArg (·.1.2.1) h.frame
theorem Sending.strat (h : Sending i s k e) : e.strat = s.strat := congrArg (·.1.2.2.1) h.frame
theorem Sending.rben (h : Sending i s k e) : e.rben = s.rben := congrArg (·.1.2.2.2) h.frame
theorem Sending.owner (h : Sending i s k e) : e.owner = .hostOutput := congrArg (·.2.1.1) h.frame
theorem Sending.dir (h : Sending i s k e) : e.dir = .output := congrArg (·.2.1.2.1) h.frame

theorem Sending.arbiterOk (h : Sending i s k e) : arbiterOk e = true :=
  (arbiterOk_hostOutput h.owner).2
    ⟨⟨h.dir, congrArg (·.2.1.2.2.1) h.frame⟩, congrArg (·.2.1.2.2.2) h.frame⟩

/-- `FrameByte` reads the two addresses and the payload. -/
theorem frameByte_congr (hload : q.loadAddr = p.loadAddr) (hexec : q.execAddr = p.execAddr) (hpay : q.pay = p.pay)
    (hplen : q.plen = p.plen) : frameByte n k q = frameByte n k p := by
  rw [frameByte, frameByte, hload, hexec, readPay_congr hpay hplen]

/-- DL4 calls `SendByte` with the byte of the wire frame. -/
theorem Sending.micro_dl4 (h : Sending i s k e) (hb : (wireFrame s)[k]? = some b) (p : State) :
    micro (.dl4 s.plen) (beside p { e with seq := [] }) = .next (beside p { e with seq := [.sb1 b, .dl5 s.plen] }) := by
  obtain ⟨b', hbyte, hb'⟩ := frameByte_eq_wireFrame (lt_of_wireFrame_getElem? hb)
  cases hb'.symm.trans hb
  have hsame : frameByte s.plen e.idx.toNat (beside p { e with seq := [] }) = .ok b := by
    rw [h.idx, ← hbyte]
    exact frameByte_congr (congrArg (·.2.2.1) h.frame) (congrArg (·.2.2.2.1) h.frame) (congrArg (·.2.2.2.2.1) h.frame)
      (congrArg (·.2.2.2.2.2) h.frame)
  exact stepDl4_of_frameByte hsame

theorem Sending.turns_dl4 (h : Sending i s k e) (hb : (wireFrame s)[k]? = some b) (hp : peerOnly p = true) :
    Turns (beside p e) (beside (peerAfter 1 p) { e with seq := [.sb1 b, .dl5 s.plen] }) := by
  exact .step hp h.run (h.seq.trans (by rw [if_pos (lt_of_wireFrame_getElem? hb)])) (h.micro_dl4 hb _)

/-- The engine after DL5. -/
def counted (n : Nat) (e : State) : State :=
  { e with idx := e.idx + 1#17, seq := [if (e.idx + 1#17).toNat < n + 7 then .dl4 n else .dl6] }

/-- DL5 counts the byte; `IDX` does not wrap (R49). -/
theorem Sending.counted (h : Sending i s k e) (hk : k < s.plen + 7) (hlen : s.plen ≤ 65535)
    (hframe : loopFrame e' = loopFrame e) (hidx : e'.idx = e.idx) (hidle : e'.ordy = .inactive ∧ e'.ofsm = .idle) :
    Sending i s (k + 1) (counted s.plen e') := by
  have hcount : (e'.idx + 1#17).toNat = k + 1 := by
    rw [hidx, BitVec.toNat_add, h.idx, show (1#17).toNat = 1 from rfl, Nat.mod_eq_of_lt (by omega)]
  exact ⟨hframe.trans h.frame, hcount, by rw [Machine.counted, hcount], fun _ => hidle⟩

/-- How far a download of `s` has come: `k` bytes sent, with the engine's events `evs` since the claim. -/
structure Progress (i : Instr) (s : State) (k : Nat) (evs : List TraceEvent) (p e : State) : Prop where
  turns : Turns (beside s (accept (encode i) (startLabels i) s)) (beside p e)
  sending : Sending i s k e
  recorded : Recorded s (claimTrace ++ evs) p

theorem progress_begun (h : PassesChecks i s) (hp : peerOnly s = true) (howner : s.owner = .none)
    (harb : arbiterOk s = true) : Progress i s 0 [] (peerStarted s) (begun i s) :=
  ⟨turns_begun h hp howner harb, sending_begun i s, recorded_peerStarted hp⟩

/-- One byte more, its `SendByte` having returned with `e'` beside `q`. -/
theorem Progress.byte (h : Progress i s k evs p e) (hlen : s.plen ≤ 65535) (hb : (wireFrame s)[k]? = some b)
    (hsend : Turns (beside (peerAfter 1 p) { e with seq := [.sb1 b, .dl5 s.plen] })
      (beside q { e' with seq := [.dl5 s.plen] }))
    (hq : Recorded s (claimTrace ++ evs') q) (hframe : loopFrame e' = loopFrame e)
    (hidx : e'.idx = e.idx) (hidle : e'.ordy = .inactive ∧ e'.ofsm = .idle) :
    Progress i s (k + 1) evs' (peerAfter 1 q) (counted s.plen e') := by
  obtain ⟨hturns, hsending, hrecorded⟩ := h
  have hrun : e'.run = .busy := (congrArg (·.1.1) hframe).trans hsending.run
  have hdl5 : Turns (beside q { e' with seq := [.dl5 s.plen] }) (beside (peerAfter 1 q) (counted s.plen e')) :=
    .step hq.peer hrun rfl rfl
  exact ⟨hturns.trans <| (hsending.turns_dl4 hb hrecorded.peer).trans <| hsend.trans hdl5,
    hsending.counted (lt_of_wireFrame_getElem? hb) hlen hframe hidx hidle, hq.peerAfter 1⟩

/-- The events of one byte more. -/
theorem flatMap_take_succ {α β : Type} (f : α → List β) {xs : List α} {x : α} (h : xs[k]? = some x) :
    (xs.take (k + 1)).flatMap f = (xs.take k).flatMap f ++ f x := by
  simp [List.take_add_one, h]

/-! ### The end -/

/-- What stands beside the engine after DL6, which gives the bus back. -/
def peerGivenBack (p : State) : State := emit (.direction .input) (emit (.deasserted .csho) (peerAfter 1 p))

/-- The state in which a download ends that has come to DL6. -/
def downloadEnd (p e : State) : State := beside (peerAfter 1 (peerGivenBack p)) (complete (busFree e))

theorem peerOnly_peerGivenBack (hp : peerOnly p = true) : peerOnly (peerGivenBack p) = true := by
  rw [peerGivenBack, peerOnly_emit, peerOnly_emit]
  exact peerOnly_peerAfter 1 hp

theorem samePeer_peerGivenBack (p : State) : SamePeer (peerAfter 1 p) (peerGivenBack p) :=
  (samePeer_emit _ _).trans (samePeer_emit _ _)

theorem micro_dl6 (p e : State) : micro .dl6 (beside p { heldForOutput e with seq := [] }) =
    .next (beside (emit (.direction .input) (emit (.deasserted .csho) p)) { busFree e with seq := [.dl7] }) := by
  unfold beside heldForOutput busFree
  rfl

/-- The whole frame sent, the download releases the bus and completes. -/
theorem Progress.exec_eq (h : Progress i s (s.plen + 7) evs p e) (hi : beforeStart i s = s) (hready : s.run = .ready)
    (hp : peerOnly s = true) : exec i s = .next (downloadEnd p e) := by
  obtain ⟨hturns, hsending, hrecorded⟩ := h
  have hheld : e = { heldForOutput e with seq := [.dl6] } := by
    have hseq := hsending.seq
    rw [if_neg (Nat.lt_irrefl _)] at hseq
    rw [heldForOutput_of_arbiterOk hsending.arbiterOk hsending.owner, ← hseq]
  have hdl6 : Turns (beside p e) (beside (peerGivenBack p) { busFree e with seq := [.dl7] }) := by
    rw [hheld]
    exact .step hrecorded.peer hsending.run rfl (micro_dl6 _ e)
  have hdl7 : Turns (beside (peerGivenBack p) { busFree e with seq := [.dl7] }) (downloadEnd p e) :=
    .step (peerOnly_peerGivenBack hrecorded.peer) hsending.run rfl rfl
  refine exec_of_turns hready hp ?_ (.inl nofun)
  rw [hi]
  exact hturns.trans (hdl6.trans hdl7)

theorem Progress.recorded_downloadEnd (h : Progress i s k evs p e) :
    Recorded s (claimTrace ++ evs ++ releaseTrace) (peerAfter 1 (peerGivenBack p)) := by
  have hback := ((h.recorded.peerAfter 1).emit (ev := .deasserted .csho)).emit (ev := .direction .input)
  rw [List.append_assoc _ [_] [_]] at hback
  exact hback.peerAfter 1

end Sys2Proof.Machine
end

section
/-! Downloads without readback whatever the peer does (spec 43_download.md R177 to R184): they send the whole frame under
`PulseTimed`, and under `Acknowledged` as much of it as is acknowledged. -/

namespace Sys2Proof.Machine

variable {s u v p e : State} {i : Instr} {b : Byte} {k m n K : Nat} {rest : List Label} {evs : List TraceEvent}

/-! ### `TX` -/

/-- `TX` is read off the engine's events (spec 00_scope.md R13). -/
theorem txFrom_engineTrace (d : Byte) (tr : List TraceEvent) : txFrom d (engineTrace tr) = txFrom d tr := by
  induction tr generalizing d with
  | nil => rfl
  | cons ev tr ih =>
    cases ev with
    | asserted l =>
      change txFrom d (.asserted l :: engineTrace tr) = _
      cases l <;> simp [txFrom, ih]
    | drove b => exact ih b
    | reset => exact ih _
    | _ => exact ih d

theorem txFrom_byteTraces (d : Byte) (bs : List Byte) : txFrom d (bs.flatMap byteTrace ++ releaseTrace) = bs := by
  induction bs generalizing d with
  | nil => rfl
  | cons b bs ih => exact congrArg (b :: ·) (ih b)

/-- What has been recorded since `s` is a part of the trace of its own. -/
theorem Recorded.exists_new (h : Recorded s evs p) : ∃ new, p.trace = s.trace ++ new ∧ engineTrace new = evs := by
  obtain ⟨-, ⟨new, hnew⟩, htrace⟩ := h
  rw [← hnew, engineTrace_append] at htrace
  exact ⟨new, hnew.symm, List.append_cancel_left htrace⟩

/-! ### One byte, then all -/

/-- A byte sent without readback. -/
theorem Progress.sent (h : Progress i s k evs p e) (hlen : s.plen ≤ 65535) (hb : (wireFrame s)[k]? = some b)
    (hsend : Turns (beside (peerAfter 1 p) { e with seq := [.sb1 b, .dl5 s.plen] })
      (beside (peerSent b m (peerAfter 1 p)) (Machine.sent b [.dl5 s.plen] e))) :
    Progress i s (k + 1) (evs ++ byteTrace b) (peerAfter 1 (peerSent b m (peerAfter 1 p)))
      (counted s.plen (Machine.sent b [] e)) := by
  have hq := (h.recorded.peerAfter 1).sent b m
  rw [List.append_assoc] at hq
  exact h.byte (e' := Machine.sent b [] e) hlen hb hsend hq rfl rfl ⟨rfl, rfl⟩

theorem exists_wireFrame_getElem? (hk : k < s.plen + 7) : ∃ b, (wireFrame s)[k]? = some b :=
  ⟨_, List.getElem?_eq_getElem (by simpa using hk)⟩

/-- Under `PulseTimed` every byte is sent. -/
theorem exists_progress_timed (hi : PassesChecks i s) (hp : peerOnly s = true) (hstrat : s.strat = .pulseTimed)
    (howner : s.owner = .none) (harb : arbiterOk s = true) (hk : k ≤ s.plen + 7) :
    ∃ p e, Progress i s k (((wireFrame s).take k).flatMap byteTrace) p e := by
  induction k with
  | zero => exact ⟨_, _, progress_begun hi hp howner harb⟩
  | succ k ih =>
    obtain ⟨p, e, h⟩ := ih (Nat.le_of_succ_le hk)
    obtain ⟨b, hb⟩ := exists_wireFrame_getElem? (s := s) hk
    have hsend := turns_send_timed (e := { e with seq := [.sb1 b, .dl5 s.plen] })
      (peerOnly_peerAfter 1 h.recorded.peer) h.sending.run rfl h.sending.owner h.sending.dir (h.sending.strat.trans hstrat)
    rw [flatMap_take_succ byteTrace hb]
    exact ⟨_, _, h.sent hi.plen_le hb hsend⟩

/-- The end of a download that has sent the whole frame without readback. -/
theorem Progress.downloadEnd_facts (h : Progress i s (s.plen + 7) ((wireFrame s).flatMap byteTrace) p e) :
    (downloadEnd p e).cur = encode i ∧ (downloadEnd p e).idx.toNat = s.plen + 7 ∧ (downloadEnd p e).ordy = .inactive
      ∧ (downloadEnd p e).ofsm = .idle
      ∧ engineTrace (downloadEnd p e).trace =
          engineTrace s.trace ++ claimTrace ++ (wireFrame s).flatMap byteTrace ++ releaseTrace
      ∧ ∃ new, (downloadEnd p e).trace = s.trace ++ new ∧ txFrom s.dout new = wireFrame s := by
  obtain ⟨hordy, hofsm⟩ := h.sending.idle (Nat.succ_pos _)
  have hend := h.recorded_downloadEnd
  obtain ⟨new, hnew, hevents⟩ := hend.exists_new
  refine ⟨h.sending.cur, h.sending.idx, hordy, hofsm, ?_, new, hnew, ?_⟩
  · rw [List.append_assoc, List.append_assoc, ← List.append_assoc claimTrace]
    exact hend.trace
  · rw [← txFrom_engineTrace, hevents, List.append_assoc]
    exact txFrom_byteTraces s.dout (wireFrame s)

theorem take_wireFrame (s : State) : (wireFrame s).take (s.plen + 7) = wireFrame s :=
  List.take_of_length_le (by simp)

theorem passesChecks_of (hi : i = .dload ∨ (i = .dloadi ∧ s.length.toNat = s.plen)) (hlen : s.plen ≤ 65535) :
    PassesChecks i s := hi.imp_left fun h => ⟨h, hlen⟩

/-- Settles O41: every `SendByte` of the loop returns, and the bytes are those of the wire frame. -/
theorem timedDownloadSendsTheFrame : Obligations.TimedDownloadSendsTheFrame := by
  intro s i hi hready hp hstrat howner harb hlen
  have hpass := passesChecks_of hi hlen
  obtain ⟨p, e, h⟩ := exists_progress_timed hpass hp hstrat howner harb le_rfl
  rw [take_wireFrame] at h
  obtain ⟨hcur, hidx, hordy, hofsm, htrace, htx⟩ := h.downloadEnd_facts
  exact ⟨_, h.exec_eq hpass.beforeStart hready hp, rfl, rfl, hcur, hidx, rfl, rfl, rfl, rfl, hordy, hofsm, htrace, htx⟩

/-! ### Acknowledged bytes -/

/-- `k` bytes sent under `Acknowledged`; the peer stands as in `v` when the next is to be sent, and left alone from there it
acknowledges `n` more and then stands as in `u`. -/
structure AckedProgress (i : Instr) (s : State) (k n : Nat) (u v p e : State) : Prop where
  progress : Progress i s k (((wireFrame s).take k).flatMap byteTrace) p e
  peer : peerOnly v = true
  same : SamePeer v (peerAfter 1 p)
  acks : afterSends 2 n v = some u
  edge : 0 < k → p.ackEdge = true

theorem AckedProgress.byte (h : AckedProgress i s k (n + 1) u v p e) (hlen : s.plen ≤ 65535)
    (hstrat : s.strat = .acknowledged) (hrben : s.rben = false) (hk : k < s.plen + 7) :
    ∃ v' p' e', AckedProgress i s (k + 1) n u v' p' e' := by
  obtain ⟨hprogress, hv, hsame, hacks, -⟩ := h
  obtain ⟨b, hb⟩ := exists_wireFrame_getElem? (s := s) hk
  obtain ⟨w, hw, hrest⟩ := Option.bind_eq_some_iff.1 hacks
  obtain ⟨r, hr, rfl⟩ := ackTurn_of_afterSend hw
  have hp1 := peerOnly_peerAfter 1 hprogress.recorded.peer
  have hack : ackTurn (peerAfter 1 p) = some r := (ackTurn_congr hsame hv).trans hr
  obtain ⟨hsend, hedge⟩ := turns_send_acked (e := { e with seq := [.sb1 b, .dl5 s.plen] }) hp1 hprogress.sending.run rfl
    hprogress.sending.owner hprogress.sending.dir (hprogress.sending.strat.trans hstrat)
    (hprogress.sending.rben.trans hrben) hack
  have hnext := hprogress.sent hlen hb hsend
  rw [← flatMap_take_succ byteTrace hb] at hnext
  have hsent := peerOnly_peerSent b (max 1 r) hp1
  have hsame' : SamePeer (peerAfter (7 + max 1 r) v) (peerSent b (max 1 r) (peerAfter 1 p)) :=
    (hsame.peerAfter hv (7 + max 1 r)).trans (samePeer_peerSent b (max 1 r) hp1)
  refine ⟨_, _, _, hnext, peerOnly_peerAfter 2 (peerOnly_peerAfter _ hv), ?_, hrest,
    fun _ => ackEdge_peerAfter 1 hsent hedge⟩
  rw [← peerAfter_add 1 1]
  exact hsame'.peerAfter (peerOnly_peerAfter _ hv) 2

section AllAcknowledged

variable (hi : PassesChecks i s) (hp : peerOnly s = true) (hstrat : s.strat = .acknowledged) (hrben : s.rben = false)
  (howner : s.owner = .none) (harb : arbiterOk s = true) (hK : K ≤ s.plen + 7) (hu : afterFrameBytes K s = some u)
include hi hp hstrat hrben howner harb hK hu

/-- Of the `K` bytes that the peer acknowledges, as many as one likes are sent. -/
theorem exists_progress_acked (hk : k ≤ K) : ∃ v p e, AckedProgress i s k (K - k) u v p e := by
  induction k with
  | zero => exact ⟨_, _, _, progress_begun hi hp howner harb, peerOnly_peerAfter 4 hp, samePeer_peerStarted hp, hu,
      fun h => absurd h (Nat.lt_irrefl 0)⟩
  | succ k ih =>
    obtain ⟨v, p, e, h⟩ := ih (Nat.le_of_succ_le hk)
    rw [show K - k = K - (k + 1) + 1 by omega] at h
    exact h.byte hi.plen_le hstrat hrben (Nat.lt_of_lt_of_le hk hK)

/-- All of them are sent, and the peer is where `afterFrameBytes` says. -/
theorem exists_progress_all_acked : ∃ p e, AckedProgress i s K 0 u u p e := by
  obtain ⟨v, p, e, h⟩ := exists_progress_acked hi hp hstrat hrben howner harb hK hu le_rfl
  rw [Nat.sub_self] at h
  obtain rfl : v = u := Option.some.inj h.acks
  exact ⟨p, e, h⟩

end AllAcknowledged

/-- Settles O42: every `SendByte` of the loop returns on its edge, and the peer is where `afterFrameBytes` says. -/
theorem acknowledgedDownloadSendsTheFrame : Obligations.AcknowledgedDownloadSendsTheFrame := by
  intro s u i hi hready hp hstrat hrben howner harb hlen hu
  have hpass := passesChecks_of hi hlen
  obtain ⟨p, e, hacked⟩ := exists_progress_all_acked hpass hp hstrat hrben howner harb le_rfl hu
  obtain ⟨h, hpu, hsame, -, hedge⟩ := hacked
  rw [take_wireFrame] at h
  obtain ⟨hcur, hidx, hordy, hofsm, htrace, htx⟩ := h.downloadEnd_facts
  have hp1 := h.recorded.peer
  have hback := peerOnly_peerGivenBack hp1
  have hedge' : (peerAfter 1 (peerGivenBack p)).ackEdge = true := by
    refine ackEdge_peerAfter 1 hback ?_
    rw [peerGivenBack, emit_ackEdge, emit_ackEdge]
    exact ackEdge_peerAfter 1 hp1 (hedge (Nat.succ_pos _))
  obtain ⟨-, -, -, hsameEnv⟩ := hsame.trans (samePeer_peerGivenBack p)
  have henv : (peerAfter 1 (peerGivenBack p)).env = u.env.tail := by
    rw [peerAfter_env 1 hback, hsameEnv, List.drop_one]
  exact ⟨_, h.exec_eq hpass.beforeStart hready hp, rfl, rfl, hcur, hidx, rfl, rfl, rfl, rfl, hordy, hofsm, hedge', henv,
    htrace, htx⟩

/-! ### The first byte that is not acknowledged -/

/-- `OTKN` never rises: the engine waits at SB5 for as long as the schedule goes on. -/
theorem turns_sb5_drain (hp : peerOnly p = true) (hrun : e.run = .busy) (hseq : e.seq = .sb5 b :: rest)
    (hstrat : e.strat = .acknowledged) (harmed : p.ackEdge = false) (hnever : edgeTurn p = none) :
    ∃ m, Turns (beside p e) (beside (peerAfter m p) e) ∧ (peerAfter m p).env = [] ∧ (peerAfter m p).ackEdge = false := by
  induction hlen : p.env.length generalizing p with
  | zero => exact ⟨0, .refl, List.length_eq_zero_iff.1 hlen, harmed⟩
  | succ n ih =>
    have henv : p.env ≠ [] := List.length_pos_iff.1 (by omega)
    obtain ⟨hstill, hnext⟩ := edgeTurn_none hp harmed hnever
    obtain ⟨m, hturns, hq⟩ := ih (peerOnly_peerAfter 1 hp) hstill hnext
      (by rw [peerAfter_env 1 hp, List.length_drop]; omega)
    rw [← peerAfter_add] at hturns hq
    exact ⟨1 + m, (turns_sb5_wait hp hrun hseq hstrat henv hstill).trans hturns, hq⟩

/-- What a `SendByte` that waits for ever has recorded: its byte driven, "data ready" asserted. -/
theorem turns_send_waits (h : Recorded s evs p) (hrun : e.run = .busy) (hseq : e.seq = .sb1 b :: rest)
    (howner : e.owner = .hostOutput) (hdir : e.dir = .output) (hstrat : e.strat = .acknowledged)
    (hnever : ackTurn p = none) :
    ∃ q, Turns (beside p e) (beside q (awaitingEdge b rest e)) ∧ q.env = [] ∧ q.ackEdge = false
      ∧ Recorded s (evs ++ [.drove b, .asserted .ordy]) q := by
  have harmed := h.armed b
  have hoffered := harmed.offered
  obtain ⟨hstill, hnext⟩ := edgeTurn_none harmed.peer rfl ((edgeTurn_peerArmed b h.peer).trans hnever)
  have hsb4 := turns_sb4 (e := { e with dout := b, seq := .sb4 b :: rest }) harmed.peer hrun rfl
  obtain ⟨m, hwait, henv, hedge⟩ := turns_sb5_drain (p := peerOffered (peerArmed b p)) (e := awaitingEdge b rest e)
    hoffered.peer hrun rfl hstrat hstill hnext
  rw [List.append_assoc] at hoffered
  exact ⟨_, (turns_sb1 h.peer hrun hseq howner hdir).trans (hsb4.trans hwait), henv, hedge, hoffered.peerAfter m⟩

/-- Settles O43: the bytes before it are sent, its `SendByte` stops at SB5, and a step there changes nothing. -/
theorem downloadStallsAtItsFirstUnacknowledgedByte : Obligations.DownloadStallsAtItsFirstUnacknowledgedByte := by
  intro s u i j hi hready hp hstrat hrben howner harb hlen hj hu hnone
  have hpass := passesChecks_of hi hlen
  obtain ⟨p, e, h, hpu, hsame, -, -⟩ := exists_progress_all_acked hpass hp hstrat hrben howner harb (Nat.le_of_lt hj) hu
  obtain ⟨b, hb⟩ := exists_wireFrame_getElem? (s := s) hj
  obtain ⟨hturns, hsending, hrecorded⟩ := h
  have hstrat' := hsending.strat.trans hstrat
  have hnever : ackTurn (peerAfter 1 p) = none := (ackTurn_congr hsame hpu).trans (ackTurn_of_afterSend_none hnone)
  obtain ⟨q, hwait, henv, hedge, hq⟩ := turns_send_waits (e := { e with seq := [.sb1 b, .dl5 s.plen] })
    (hrecorded.peerAfter 1) hsending.run rfl hsending.owner hsending.dir hstrat' hnever
  have hall := hturns.trans ((hsending.turns_dl4 hb hrecorded.peer).trans hwait)
  have hstops : Stopped (beside q (awaitingEdge b [.dl5 s.plen] { e with seq := [.sb1 b, .dl5 s.plen] })) :=
    .inr (leftToEnv_of_awaits henv ⟨.sb5 b, _, rfl, hstrat', hedge⟩)
  refine ⟨_, b, exec_of_turns hready hp (by rw [hpass.beforeStart]; exact hall) hstops, hb, rfl, rfl, hsending.idx,
    hsending.run, hsending.owner, hsending.dir, congrArg (·.2.1.2.2.1) hsending.frame, rfl, rfl, hedge, ?_,
    run_of_step_self (step_awaitingEdge hsending.run hstrat' henv hedge)⟩
  rw [List.append_assoc, List.append_assoc, ← List.append_assoc [_, _]]
  exact hq.trace

end Sys2Proof.Machine
end

section
/-! DLOAD with readback beside a peer that acknowledges each byte and echoes another (spec 43_download.md R177;
42_handshake.md R143, R144): what is counted, what is recorded, and that every byte is sent. -/

namespace Sys2Proof.Machine

variable {s p e : State} {i : Instr} {b v : Byte} {k : Nat} {evs : List TraceEvent} {es : List (List Event)}
  {ps : List (Byte × Byte)} {echo : List Byte}

/-! ### The readback of an echo -/

theorem Recorded.readBack (h : Recorded s evs p) : Recorded s (evs ++ readbackTrace (readbackByte p)) (peerReadBack p) := by
  have hreleased : Recorded s (evs ++ [.deasserted .csho] ++ [.direction .input]) (peerReleased p) :=
    (h.peerAfter 2).emit.emit
  have hlistening : Recorded s _ (peerListening p) := (hreleased.peerAfter 1).emit (ev := .asserted .cspi)
  have hsampled : Recorded s _ (peerSampled p) := (hlistening.peerAfter 1).emit (ev := .sampled (readbackByte p))
  have hfreed : Recorded s _ (peerFreed p) := (hsampled.peerAfter 1).emit (ev := .deasserted .cspi)
  have hrestored : Recorded s _ (peerRestored p) :=
    ((hfreed.peerAfter 1).emit (ev := .direction .output)).emit (ev := .asserted .csho)
  have hback := hrestored.peerAfter 2
  simp only [List.append_assoc, List.cons_append, List.nil_append] at hback
  exact hback

/-- The schedule of a readback from SB7 on: the peer presents `v` at SB7c. -/
def echoAtSb7c (v : Byte) : List (List Event) := [[], [], [], [.pdata v], [], [], [], []]

theorem peerReadBack_echo (henv : p.env = echoAtSb7c v ++ es) :
    (peerReadBack p).env = es ∧ (peerReadBack p).otkn = p.otkn ∧ readbackByte p = v := by
  simp [peerReadBack, peerRestored, peerFreed, peerSampled, readbackByte, peerListening, peerReleased, peerAfter,
    letEnvAct, henv, echoAtSb7c, applyEvents, applyEvent]

theorem echoTurn_append (v : Byte) (es : List (List Event)) :
    echoTurn v ++ es = [] :: (pulseAt 1 ++ ([] :: (echoAtSb7c v ++ ([] :: es)))) := rfl

/-- One byte sent with readback, beside a peer that echoes `v`. -/
theorem turns_echo (h : Recorded s evs p) (hotkn : p.otkn = .inactive)
    (henv : p.env = pulseAt 1 ++ ([] :: (echoAtSb7c v ++ es))) (hrun : e.run = .busy) (hstrat : e.strat = .acknowledged)
    (hrben : e.rben = true) (harb : arbiterOk e = true) (howner : e.owner = .hostOutput) {rest : List Label} :
    ∃ q, Turns (beside p { e with seq := .sb1 b :: rest }) (beside q { compared b v (sent b [] e) with seq := rest })
      ∧ Recorded s (evs ++ (byteTrace b ++ readbackTrace v)) q ∧ q.otkn = .inactive ∧ q.env = es := by
  obtain ⟨⟨hdir, -⟩, -⟩ := (arbiterOk_hostOutput howner).1 harb
  obtain ⟨htaken, -⟩ := turns_taken_acked (e := { e with seq := .sb1 b :: rest }) h.peer hrun rfl howner hdir hstrat
    (ackTurn_pulseAt hotkn henv)
  have hpulse := peerTaken_pulseAt (b := b) hotkn henv (by simp [turnsToSb7])
  have hecho : (peerTaken b (max 1 1) p).env = echoAtSb7c v ++ es := by rw [hpulse]; rfl
  obtain ⟨henvBack, hotknBack, hbyte⟩ := peerReadBack_echo hecho
  have hread := turns_readback (b := b) (rest := rest) (e := sent b [] e) (h.taken b (max 1 1)).peer hrun hstrat hrben
    harb howner
  have hrecorded := (h.taken b (max 1 1)).readBack
  rw [hbyte] at hread hrecorded
  rw [List.append_assoc] at hrecorded
  exact ⟨_, htaken.trans hread, hrecorded, by rw [hotknBack, hpulse]; exact hotkn, henvBack⟩

/-! ### The mismatches -/

/-- How many of the pairs of a byte sent and a byte read back differ. -/
def mismatches (ps : List (Byte × Byte)) : Nat := ps.countP fun p => p.1 != p.2

theorem mismatches_append (ps : List (Byte × Byte)) (b v : Byte) :
    mismatches (ps ++ [(b, v)]) = mismatches ps + if v = b then 0 else 1 := by
  by_cases h : v = b
  · simp [mismatches, h]
  · simp [mismatches, h, Ne.symm h]

theorem mismatches_zip_eq_zero {xs ys : List Byte} (h : xs.length = ys.length) :
    mismatches (xs.zip ys) = 0 ↔ xs = ys := by
  induction xs generalizing ys with
  | nil => simp [mismatches, List.eq_nil_of_length_eq_zero h.symm]
  | cons x xs ih =>
    cases ys with
    | nil => cases h
    | cons y ys =>
      have hrest := ih (ys := ys) (by simpa using h)
      simp only [mismatches, List.zip_cons_cons, List.countP_cons] at hrest ⊢
      by_cases hxy : x = y <;> simp [hxy, hrest]

/-- The mismatches among `ps` are on record in `e`, and those of before in `s` (R144, R39). -/
structure MismatchesOf (s : State) (ps : List (Byte × Byte)) (e : State) : Prop where
  count : e.rbcnt.toNat = min (s.rbcnt.toNat + mismatches ps) 0xFFFF
  bit : e.errstat = if mismatches ps = 0 then s.errstat else s.errstat ||| 0x10#8

theorem MismatchesOf.compared (h : MismatchesOf s ps e) (b v : Byte) :
    MismatchesOf s (ps ++ [(b, v)]) (compared b v e) := by
  obtain ⟨hcount, hbit⟩ := h
  unfold Machine.compared
  by_cases hv : v = b
  · have hsame : mismatches (ps ++ [(b, v)]) = mismatches ps := by simp [mismatches_append, hv]
    rw [if_pos hv]
    exact ⟨by rw [hsame, hcount], by rw [hsame, hbit]⟩
  · have hmore : mismatches (ps ++ [(b, v)]) = mismatches ps + 1 := by simp [mismatches_append, hv]
    rw [if_neg hv]
    refine ⟨?_, ?_⟩
    · rw [recordMismatch_rbcnt, satIncr_toNat, hcount, hmore]
      omega
    · rw [recordMismatch_errstat, setErrBit_readbackMismatch, hbit, hmore, if_neg (Nat.succ_ne_zero _)]
      split <;> simp [BitVec.or_assoc]

/-! ### The whole frame -/

/-- The events of a byte sent and its readback. -/
def echoTrace (p : Byte × Byte) : List TraceEvent := byteTrace p.1 ++ readbackTrace p.2

/-- How far a download with readback has come, the peer echoing the bytes `echo` from the `k`-th on. -/
structure EchoProgress (s : State) (echo : List Byte) (k : Nat) (p e : State) : Prop where
  progress : Progress .dload s k ((((wireFrame s).zip echo).take k).flatMap echoTrace) p e
  otkn : p.otkn = .inactive
  env : p.env = (echo.drop k).flatMap echoTurn
  record : MismatchesOf s (((wireFrame s).zip echo).take k) e

theorem loopFrame_compared (b v : Byte) (e : State) : loopFrame (compared b v (sent b [] e)) = loopFrame e := by
  rw [compared_eq]
  rfl

theorem EchoProgress.byte (h : EchoProgress s echo k p e) (hlen : s.plen ≤ 65535) (hstrat : s.strat = .acknowledged)
    (hrben : s.rben = true) (hk : k < s.plen + 7) (hecho : echo.length = s.plen + 7) :
    ∃ p' e', EchoProgress s echo (k + 1) p' e' := by
  obtain ⟨hprogress, hotkn, henv, hrecord⟩ := h
  obtain ⟨b, hb⟩ := exists_wireFrame_getElem? (s := s) hk
  have hlt : k < echo.length := hecho ▸ hk
  obtain ⟨v, hv⟩ : ∃ v, echo[k] = v := ⟨_, rfl⟩
  have hpair : ((wireFrame s).zip echo)[k]? = some (b, v) :=
    List.getElem?_zip_eq_some.2 ⟨hb, hv ▸ List.getElem?_eq_getElem hlt⟩
  have hdrop : echo.drop k = v :: echo.drop (k + 1) := hv ▸ List.drop_eq_getElem_cons hlt
  rw [hdrop, List.flatMap_cons, echoTurn_append] at henv
  have hdl4 : peerAfter 1 p = { p with env := p.env.drop 1 } := peerAfter_silent (by simp [henv])
  obtain ⟨q, hsend, hq, hqotkn, hqenv⟩ := turns_echo (b := b) (e := e) (rest := [.dl5 s.plen])
    (hprogress.recorded.peerAfter 1) (by rw [hdl4]; exact hotkn) (by rw [hdl4, henv]; rfl) hprogress.sending.run
    (hprogress.sending.strat.trans hstrat) (hprogress.sending.rben.trans hrben) hprogress.sending.arbiterOk
    hprogress.sending.owner
  have hdl5 : peerAfter 1 q = { q with env := q.env.drop 1 } := peerAfter_silent (by simp [hqenv])
  rw [List.append_assoc] at hq
  have hnext := hprogress.byte hlen hb hsend hq (loopFrame_compared b v e) (by rw [compared_eq]; rfl)
    (by rw [compared_eq]; exact ⟨rfl, rfl⟩)
  obtain ⟨hcount, hbit⟩ := MismatchesOf.compared (e := sent b [] e) ⟨hrecord.count, hrecord.bit⟩ b v
  refine ⟨peerAfter 1 q, counted s.plen (compared b v (sent b [] e)), ?_, by rw [hdl5]; exact hqotkn,
    by rw [hdl5, hqenv]; rfl, ?_⟩
  · rw [flatMap_take_succ echoTrace hpair]
    exact hnext
  · rw [List.take_add_one, hpair]
    exact ⟨hcount, hbit⟩

theorem echoProgress_begun (hp : peerOnly s = true) (hlen : s.plen ≤ 65535) (howner : s.owner = .none)
    (harb : arbiterOk s = true) (hotkn : s.otkn = .inactive)
    (henv : s.env = [[], [], []] ++ echo.flatMap echoTurn) : EchoProgress s echo 0 (peerStarted s) (begun .dload s) := by
  have htwo : peerAfter 2 s = { s with env := s.env.drop 2 } := peerAfter_silent (by simp [henv])
  have hthree : peerStarted s = { peerClaimed s with env := (peerClaimed s).env.drop 1 } :=
    peerAfter_silent (by simp [peerClaimed, htwo, henv])
  refine ⟨progress_begun (.inl ⟨rfl, hlen⟩) hp howner harb, ?_, ?_, ?_, rfl⟩
  · rw [hthree, peerClaimed, htwo]
    exact hotkn
  · rw [hthree, peerClaimed, htwo, emit_env, emit_env, henv]
    rfl
  · have hlt := s.rbcnt.isLt
    change s.rbcnt.toNat = min (s.rbcnt.toNat + 0) 0xFFFF
    omega

theorem exists_echoProgress (hp : peerOnly s = true) (hlen : s.plen ≤ 65535) (hstrat : s.strat = .acknowledged)
    (hrben : s.rben = true) (howner : s.owner = .none) (harb : arbiterOk s = true) (hotkn : s.otkn = .inactive)
    (hecho : echo.length = s.plen + 7) (henv : s.env = [[], [], []] ++ echo.flatMap echoTurn) (hk : k ≤ s.plen + 7) :
    ∃ p e, EchoProgress s echo k p e := by
  induction k with
  | zero => exact ⟨_, _, echoProgress_begun hp hlen howner harb hotkn henv⟩
  | succ k ih =>
    obtain ⟨p, e, h⟩ := ih (Nat.le_of_succ_le hk)
    exact h.byte hlen hstrat hrben hk hecho

theorem all_ofPeer_echoTurns (echo : List Byte) : (echo.flatMap echoTurn).all (fun es => es.all Event.ofPeer) = true := by
  rw [List.all_flatMap, List.all_eq_true]
  exact fun _ _ => rfl

/-- Settles O44: every `SendByte` of the loop returns after its readback, whose comparison writes the mismatch record and
nothing else. -/
theorem mismatchesNeverStopADownload : Obligations.MismatchesNeverStopADownload := by
  intro s echo hready hstrat hrben howner harb hotkn hlen hecho henv
  have hp : peerOnly s = true := by
    rw [peerOnly, henv, List.all_append, all_ofPeer_echoTurns]
    rfl
  obtain ⟨p, e, h, -, -, hrecord⟩ := exists_echoProgress hp hlen hstrat hrben howner harb hotkn hecho henv le_rfl
  have hpairs : ((wireFrame s).zip echo).take (s.plen + 7) = (wireFrame s).zip echo :=
    List.take_of_length_le (by simp [hecho])
  rw [hpairs] at h hrecord
  obtain ⟨hcount, hbit⟩ := hrecord
  have hsame : mismatches ((wireFrame s).zip echo) = 0 ↔ wireFrame s = echo := mismatches_zip_eq_zero (by simp [hecho])
  simp only [hsame] at hbit
  refine ⟨_, h.exec_eq rfl hready hp, rfl, rfl, h.sending.idx, rfl, hcount, hbit, ?_⟩
  rw [List.append_assoc, List.append_assoc, ← List.append_assoc [_, _]]
  exact h.recorded_downloadEnd.trace

end Sys2Proof.Machine
end

section
/-! The inbound reader (spec 44_inbound_reader.md): TAKE, and DRAIN turn by turn whatever the peer does. -/

namespace Sys2Proof.Machine

variable {s t u p e : State} {l : Label} {rest : List Label} {k K : Nat} {evs : List TraceEvent}

/-! ### TAKE, and DRAIN with nothing to read -/

theorem letEnvAct_inbuf (hp : peerOnly s = true) (h : letEnvAct s = .next t) : t.inbuf = s.inbuf := by
  rw [(peerTouchesOnlyItsOwnState s t hp h).1]

/-- Settles O24: the micro-step delivers the buffer, which the peer leaves alone, and empties it. -/
theorem takeDeliversTheBuffer : Obligations.TakeDeliversTheBuffer := by
  intro s hready hp
  obtain ⟨s1, hs1, -⟩ := exists_letEnvAct_owner hp
  refine ⟨s1, hs1, ?_⟩
  rw [← letEnvAct_inbuf hp hs1]
  exact exec_of_micro (l := .take) rfl rfl (Bool.and_false _) hready hp hs1 rfl nofun

theorem stepDr1_of_notReady (h : s.irdy = .inactive) : stepDr1 s = complete s := if_pos h

/-- Settles O35: the test at DR1 is DRAIN's only turn. -/
theorem emptyDrainHasNoEffect : Obligations.EmptyDrainHasNoEffect := by
  intro s s1 hready hp hs1 hirdy
  rw [letEnvAct_eq_peerAfter hp] at hs1
  cases hs1
  have hdr1 : Turns (beside s (accept (encode .drain) [.dr1] { s with drainCnt := 0 }))
      (beside (peerAfter 1 s) (complete (accept (encode .drain) [] { s with drainCnt := 0 }))) :=
    .step hp rfl rfl (congrArg Host.Outcome.next (stepDr1_of_notReady hirdy))
  rw [exec_of_turns (i := .drain) hready hp hdr1 (.inl nofun), peerAfter_eq_beside 1 hp]
  rfl

/-! ### The claim at DR2 -/

/-- The engine's events of DRAIN's claim; the direction is written only where it differs (spec 40_arbiter.md R102). -/
def grantTrace (d : Dir) : List TraceEvent := (if d = .input then [] else [.direction .input]) ++ [.asserted .cspi]

/-- What stands beside the engine when DRAIN has claimed the bus, `DIR` having been `d` before. -/
def peerGranted (d : Dir) (p : State) : State :=
  emit (.asserted .cspi) (if d = .input then p else emit (.direction .input) p)

/-- The engine after DR2. -/
def granted (e : State) : State := { e with owner := .peerInput, dir := .input, cspi := .active, seq := [.dr3] }

theorem samePeer_peerGranted (d : Dir) (p : State) : SamePeer p (peerGranted d p) := by
  cases d <;> exact ⟨rfl, rfl, rfl, rfl⟩

theorem Recorded.granted (h : Recorded s evs p) (d : Dir) : Recorded s (evs ++ grantTrace d) (peerGranted d p) := by
  cases d
  · exact h.emit
  · rw [grantTrace, ← List.append_assoc]
    exact (h.emit (ev := .direction .input)).emit

theorem micro_dr2 (howner : e.owner = .none) :
    micro .dr2 (beside p { e with seq := [] }) = .next (beside (peerGranted e.dir p) (granted e)) := by
  have hfree : (beside p { e with seq := [] }).owner = .none := howner
  change Host.Outcome.next (claimThen .peerInput .input .dr3 _) = _
  rw [claimThen, claimBus, if_pos hfree]
  cases hdir : e.dir <;> simp [setDir, beside] <;> rfl

/-- The engine of a DRAIN that has come to DR3 for its first byte. -/
def drainBegun (s : State) : State := granted (accept (encode .drain) [] { s with drainCnt := 0 })

/-- DR1 and DR2 of a DRAIN that finds data ready and the bus free. -/
theorem turns_drainBegun (hp : peerOnly s = true) (howner : s.owner = .none) (hirdy : (peerAfter 1 s).irdy = .active) :
    Turns (beside s (accept (encode .drain) [.dr1] { s with drainCnt := 0 }))
      (beside (peerGranted s.dir (peerAfter 2 s)) (drainBegun s)) := by
  refine (turns_dr1_ready hp hirdy).trans ?_
  rw [peerAfter_add 1 1 s]
  exact Turns.step (peerOnly_peerAfter 1 hp) rfl rfl (micro_dr2 howner)

/-! ### One byte: DR3, `ReceiveByte`, DR4 -/

/-- The peer has gone through 6 boundaries when `ReceiveByte` has returned. -/
theorem samePeer_peerReceived (hp : peerOnly p = true) : SamePeer (peerAfter 6 p) (peerReceived p) := by
  have hread : SamePeer (peerAfter 2 p) (peerRead p) := samePeer_emit (.sampled (peerAfter 2 p).pdata) (peerAfter 2 p)
  have hanswered : SamePeer (peerAfter 3 p) (peerAnswered (peerRead p)) := by
    rw [peerAfter_add 2 1 p]
    exact (hread.peerAfter (peerOnly_peerAfter 2 hp) 1).trans (samePeer_emit _ _)
  have hunanswered : SamePeer (peerAfter 5 p) (peerUnanswered (peerAnswered (peerRead p))) := by
    rw [peerAfter_add 3 2 p]
    exact (hanswered.peerAfter (peerOnly_peerAfter 3 hp) 2).trans (samePeer_emit _ _)
  rw [peerAfter_add 5 1 p]
  exact hunanswered.peerAfter (peerOnly_peerAfter 5 hp) 1

/-- The engine's events of one byte read (spec 42_handshake.md R152). -/
def readTrace (v : Byte) : List TraceEvent := [.sampled v, .asserted .itkn, .deasserted .itkn]

theorem Recorded.received (h : Recorded s evs p) :
    Recorded s (evs ++ readTrace (Machine.peerAfter 2 p).pdata) (peerReceived p) := by
  have hread : Recorded s (evs ++ [.sampled (Machine.peerAfter 2 p).pdata]) (peerRead p) := by
    obtain ⟨hpeer, hgrows, htrace⟩ := (h.peerAfter 2).emit (ev := .sampled (Machine.peerAfter 2 p).pdata)
    exact ⟨hpeer, hgrows, htrace⟩
  have hanswered : Recorded s _ (peerAnswered (peerRead p)) := (hread.peerAfter 1).emit (ev := .asserted .itkn)
  have hunanswered : Recorded s _ (peerUnanswered (peerAnswered (peerRead p))) :=
    (hanswered.peerAfter 2).emit (ev := .deasserted .itkn)
  have hreceived := hunanswered.peerAfter 1
  rw [List.append_assoc, List.append_assoc] at hreceived
  exact hreceived

/-- What stands beside the engine after DR3, `ReceiveByte` and DR4. -/
def peerDrained (p : State) : State := peerAfter 1 (peerReceived (peerAfter 1 p))

/-- The engine at DR5 when the bytes `bs` have been read, the last of them `v`. -/
def drained (bs : List Byte) (v : Byte) (e : State) : State :=
  { e with din := v, inbuf := e.inbuf ++ bs, drainCnt := e.drainCnt + bs.length, ifsm := .idle, itkn := .inactive
           seq := [.dr5] }

theorem drained_drained (bs : List Byte) (v w : Byte) (e : State) :
    drained [w] w (drained bs v e) = drained (bs ++ [w]) w e := by
  simp [drained, Nat.add_assoc]

theorem samePeer_peerDrained (hp : peerOnly p = true) : SamePeer (peerAfter 8 p) (peerDrained p) := by
  have hp1 := peerOnly_peerAfter 1 hp
  rw [peerAfter_add 1 7 p, peerAfter_add 6 1 (peerAfter 1 p)]
  exact (samePeer_peerReceived hp1).peerAfter (peerOnly_peerAfter 6 hp1) 1

theorem Recorded.drained (h : Recorded s evs p) :
    Recorded s (evs ++ readTrace (Machine.peerAfter 3 p).pdata) (peerDrained p) := by
  rw [peerAfter_add 1 2 p]
  exact (h.peerAfter 1).received.peerAfter 1

/-- DR3, `ReceiveByte` and DR4: one byte, the one the peer presents at RB2 (R191). -/
theorem turns_byte (hp : peerOnly p = true) (hrun : e.run = .busy) (howner : e.owner = .peerInput)
    (hdir : e.dir = .input) : Turns (beside p { e with seq := [.dr3] })
      (beside (peerDrained p) (drained [(peerAfter 3 p).pdata] (peerAfter 3 p).pdata e)) := by
  have hp1 := peerOnly_peerAfter 1 hp
  have hdr3 : Turns (beside p { e with seq := [.dr3] }) (beside (peerAfter 1 p) { e with seq := [.rb1, .dr4] }) :=
    .step hp hrun rfl rfl
  have hreceive := turns_receive (rest := [.dr4]) hp1 hrun howner hdir
  rw [← peerAfter_add] at hreceive
  exact hdr3.trans <| hreceive.trans <| Turns.step (peerOnly_peerReceived hp1) hrun rfl rfl

/-! ### The test at DR5 -/

theorem stepDr5_of_ready (h : s.irdy = .active) : stepDr5 s = goto [.dr3] s := by rw [stepDr5, if_pos h]

theorem stepDr5_of_notReady (h : s.irdy = .inactive) : stepDr5 s = goto [.dr6] s := by
  rw [stepDr5, if_neg (by simp [h])]

theorem turns_dr5_ready (hp : peerOnly p = true) (hrun : e.run = .busy) (hseq : e.seq = [.dr5]) (henv : p.env ≠ [])
    (hirdy : (peerAfter 1 p).irdy = .active) :
    Turns (beside p e) (beside (peerAfter 1 p) { e with seq := [.dr3] }) :=
  .one hp hrun hseq (by simp [leftToEnv, beside, henv])
    (congrArg Host.Outcome.next (stepDr5_of_ready (s := beside (peerAfter 1 p) { e with seq := [] }) hirdy))

/-- Beside a peer that is done "data ready" stands inactive, so the test is not left to it. -/
theorem turns_dr5_notReady (hp : peerOnly p = true) (hrun : e.run = .busy) (hseq : e.seq = [.dr5])
    (hirdy : (peerAfter 1 p).irdy = .inactive) :
    Turns (beside p e) (beside (peerAfter 1 p) { e with seq := [.dr6] }) := by
  have hleft : leftToEnv (beside p e) = false := by
    by_cases henv : p.env = []
    · rw [peerAfter_nil henv] at hirdy
      simp [leftToEnv, beside, hseq, hirdy]
    · simp [leftToEnv, beside, henv]
  exact .one hp hrun hseq hleft
    (congrArg Host.Outcome.next (stepDr5_of_notReady (s := beside (peerAfter 1 p) { e with seq := [] }) hirdy))

/-! ### A run of bytes -/

/-- The first `n` bytes that DRAIN reads. -/
def drainBytes (n : Nat) (s : State) : List Byte := (List.range n).map fun j => byteOfDrain j s

theorem drainBytes_succ (n : Nat) (s : State) : drainBytes (n + 1) s = drainBytes n s ++ [byteOfDrain n s] := by
  simp [drainBytes, List.range_succ]

@[simp] theorem length_drainBytes (n : Nat) (s : State) : (drainBytes n s).length = n := by simp [drainBytes]

/-- The engine at DR5 after its byte `k`, counted from 0. -/
def drainedTo (k : Nat) (s : State) : State := drained (drainBytes (k + 1) s) (byteOfDrain k s) (drainBegun s)

/-- DRAIN has come to its test after byte `k`, counted from 0, with `p` beside the engine. -/
structure DrainProgress (s : State) (k : Nat) (p : State) : Prop where
  turns : Turns (beside s (accept (encode .drain) [.dr1] { s with drainCnt := 0 })) (beside p (drainedTo k s))
  same : SamePeer (peerAfter (10 + 9 * k) s) p
  recorded : Recorded s (grantTrace s.dir ++ (drainBytes (k + 1) s).flatMap readTrace) p

/-- The byte read from DR3 on is the one `byteOfDrain` names. -/
theorem pdata_of_same (hp : peerOnly s = true) (h : SamePeer (peerAfter (2 + 9 * k) s) p) :
    (peerAfter 3 p).pdata = byteOfDrain k s := by
  obtain ⟨-, -, hpdata, -⟩ := h.peerAfter (peerOnly_peerAfter _ hp) 3
  rw [hpdata, ← peerAfter_add, show 2 + 9 * k + 3 = 5 + 9 * k by omega]
  rfl

theorem samePeer_drained (hp : peerOnly s = true) (h : SamePeer (peerAfter (2 + 9 * k) s) p) :
    SamePeer (peerAfter (10 + 9 * k) s) (peerDrained p) := by
  have hpeer := peerOnly_peerAfter (2 + 9 * k) hp
  rw [show 10 + 9 * k = 2 + 9 * k + 8 by omega, peerAfter_add]
  exact (h.peerAfter hpeer 8).trans (samePeer_peerDrained (h.peerOnly hpeer))

theorem drainProgress_zero (hp : peerOnly s = true) (howner : s.owner = .none)
    (hirdy : (peerAfter 1 s).irdy = .active) : ∃ p, DrainProgress s 0 p := by
  have hsame := samePeer_peerGranted s.dir (peerAfter 2 s)
  have hrecorded := ((Recorded.start hp).peerAfter 2).granted s.dir
  have hbyte : (peerAfter 3 (peerGranted s.dir (peerAfter 2 s))).pdata = byteOfDrain 0 s := pdata_of_same hp hsame
  have hlap := turns_byte (e := drainBegun s) hrecorded.peer rfl rfl rfl
  have hread := hrecorded.drained
  rw [hbyte] at hlap hread
  exact ⟨_, (turns_drainBegun hp howner hirdy).trans hlap, samePeer_drained hp hsame, hread⟩

theorem DrainProgress.irdy (h : DrainProgress s k p) (hp : peerOnly s = true) :
    (peerAfter 1 p).irdy = irdyAtTest k s := by
  obtain ⟨-, hirdy, -, -⟩ := h.same.peerAfter (peerOnly_peerAfter _ hp) 1
  rw [hirdy, ← peerAfter_add, show 10 + 9 * k + 1 = 11 + 9 * k by omega]
  rfl

theorem DrainProgress.succ (h : DrainProgress s k p) (hp : peerOnly s = true) (hirdy : irdyAtTest k s = .active)
    (henv : p.env ≠ []) : ∃ q, DrainProgress s (k + 1) q := by
  have hpeer := h.recorded.peer
  have hsame : SamePeer (peerAfter (2 + 9 * (k + 1)) s) (peerAfter 1 p) := by
    rw [show 2 + 9 * (k + 1) = 10 + 9 * k + 1 by omega, peerAfter_add]
    exact h.same.peerAfter (peerOnly_peerAfter _ hp) 1
  have htest := turns_dr5_ready hpeer (e := drainedTo k s) rfl rfl henv ((h.irdy hp).trans hirdy)
  have hlap := turns_byte (e := drainedTo k s) (peerOnly_peerAfter 1 hpeer) rfl rfl rfl
  have hread := (h.recorded.peerAfter 1).drained
  rw [pdata_of_same hp hsame] at hlap hread
  refine ⟨_, h.turns.trans (htest.trans ?_), samePeer_drained hp hsame, ?_⟩
  · rw [drainedTo, drained_drained, ← drainBytes_succ] at hlap
    exact hlap
  · rw [drainBytes_succ, List.flatMap_append, ← List.append_assoc]
    simpa using hread

/-- At a test that is not the last the peer is not done, for it has yet to take "data ready" back. -/
theorem DrainProgress.env_ne_nil (h : DrainProgress s k p) (hk : k < K)
    (hirdy : irdyAtTest k s = .active) (hlast : irdyAtTest K s = .inactive) : p.env ≠ [] := by
  intro henv
  obtain ⟨-, -, -, hsame⟩ := h.same
  have hdone : (peerAfter (10 + 9 * k) s).env = [] := hsame.symm.trans henv
  have hstands : ∀ n, (peerAfter (10 + 9 * k + n) s).irdy = (peerAfter (10 + 9 * k) s).irdy := fun n => by
    rw [peerAfter_add, peerAfter_nil hdone]
  rw [irdyAtTest, show 11 + 9 * k = 10 + 9 * k + 1 by omega, hstands] at hirdy
  rw [irdyAtTest, show 11 + 9 * K = 10 + 9 * k + (1 + 9 * (K - k)) by omega, hstands, hirdy] at hlast
  cases hlast

theorem exists_drainProgress (hp : peerOnly s = true) (howner : s.owner = .none)
    (hfirst : (peerAfter 1 s).irdy = .active) (hready : ∀ j, j < K → irdyAtTest j s = .active)
    (hlast : irdyAtTest K s = .inactive) (hk : k ≤ K) : ∃ p, DrainProgress s k p := by
  induction k with
  | zero => exact drainProgress_zero hp howner hfirst
  | succ k ih =>
    obtain ⟨p, h⟩ := ih (Nat.le_of_succ_le hk)
    exact h.succ hp (hready k hk) (h.env_ne_nil hk (hready k hk) hlast)

/-! ### The end -/

/-- What stands beside the engine after DR6, which gives the bus back. -/
def peerUngranted (p : State) : State := emit (.deasserted .cspi) (peerAfter 1 p)

/-- The engine after DR6. -/
def ungranted (e : State) : State := complete { e with owner := .none, dir := .input, cspi := .inactive }

theorem micro_dr6 (k : Nat) (p s : State) : micro .dr6 (beside p { drainedTo k s with seq := [] }) =
    .next (beside (emit (.deasserted .cspi) p) (ungranted (drainedTo k s))) := rfl

/-- The test after byte `k` finds "data ready" inactive: DRAIN gives the bus back and completes. -/
theorem DrainProgress.exec_eq (h : DrainProgress s k p) (hready : s.run = .ready) (hp : peerOnly s = true)
    (hirdy : irdyAtTest k s = .inactive) :
    exec .drain s = .next (beside (peerUngranted (peerAfter 1 p)) (ungranted (drainedTo k s))) := by
  have hpeer := h.recorded.peer
  have htest := turns_dr5_notReady hpeer (e := drainedTo k s) rfl rfl ((h.irdy hp).trans hirdy)
  have hdr6 : Turns (beside (peerAfter 1 p) { drainedTo k s with seq := [.dr6] })
      (beside (peerUngranted (peerAfter 1 p)) (ungranted (drainedTo k s))) :=
    .step (peerOnly_peerAfter 1 hpeer) rfl rfl (micro_dr6 k _ s)
  exact exec_of_turns (i := .drain) hready hp (h.turns.trans (htest.trans hdr6)) (.inl nofun)

/-- Settles O36: the tests lead back to DR3 `k` times and then to DR6. -/
theorem drainReturnsTheRunInOrder : Obligations.DrainReturnsTheRunInOrder := by
  intro s k hready hp howner harb hfirst hmore hlast
  obtain ⟨⟨hdir, hcsho⟩, -⟩ := (arbiterOk_none howner).1 harb
  obtain ⟨p, h⟩ := exists_drainProgress hp howner hfirst hmore hlast le_rfl
  have hend : Recorded s _ (peerUngranted (peerAfter 1 p)) :=
    ((h.recorded.peerAfter 1).peerAfter 1).emit (ev := .deasserted .cspi)
  have henv : (peerUngranted (peerAfter 1 p)).env = s.env.drop (12 + 9 * k) := by
    obtain ⟨-, -, -, hsame⟩ := h.same.peerAfter (peerOnly_peerAfter _ hp) 2
    rw [peerUngranted, emit_env, ← peerAfter_add, hsame, ← peerAfter_add, peerAfter_env _ hp,
      show 10 + 9 * k + 2 = 12 + 9 * k by omega]
  refine ⟨_, h.exec_eq hready hp hlast, rfl, rfl, rfl, rfl, ?_, rfl, rfl, rfl, hcsho, rfl, rfl, rfl, henv, ?_⟩
  · change 0 + (drainBytes (k + 1) s).length = k + 1
    rw [length_drainBytes, Nat.zero_add]
  · have htrace := hend.trace
    rw [hdir, drainBytes, List.flatMap_map, ← List.append_assoc, ← List.append_assoc] at htrace
    exact htrace

/-! ### A stream without end -/

/-- The engine stands at DR5 with "data ready" active and the peer done. -/
structure StreamsOn (u : State) : Prop where
  run : u.run = .busy
  seq : u.seq = [.dr5]
  env : u.env = []
  irdy : u.irdy = .active
  owner : u.owner = .peerInput
  dir : u.dir = .input

/-- One step of a command in progress beside a peer that is done. -/
theorem run_busy {n : Nat} (henv : s.env = []) (hrun : s.run = .busy) (hseq : s.seq = l :: rest)
    (hmicro : micro l { s with seq := rest } = .next t) :
    Sys2Proof.core.run (n + 1) s = Sys2Proof.core.run n t := by
  have hstep : step s = .next t := by
    rw [step_of_letEnvAct (hostLooks_nil henv) (letEnvAct_nil henv), turn_of_busy hrun, engineTurn_at hrun hseq, hmicro]
  exact run_succ (M := Sys2Proof.core) hstep n

/-- `u` after RB2 has latched the peer's byte and appended it (R152): since then the trace has become `tr`, "data taken"
`taken` and the inbound machine `f`, and the labels `ls` come next. -/
def streamAt (tr : List TraceEvent) (taken : Level) (f : Fsm) (ls : List Label) (u : State) : State :=
  { u with
    din := u.pdata, inbuf := u.inbuf ++ [u.pdata], rdyEdge := false, trace := tr, itkn := taken, ifsm := f, seq := ls }

/-- `u` at the test after that byte, `tr` being the trace at RB3. -/
def streamed (tr : List TraceEvent) (u : State) : State :=
  { streamAt (tr ++ [.asserted .itkn] ++ [.deasserted .itkn]) .inactive .idle [.dr5] u with
    drainCnt := u.drainCnt + 1 }

theorem StreamsOn.streamed (h : StreamsOn u) (tr : List TraceEvent) : StreamsOn (streamed tr u) :=
  ⟨h.run, rfl, h.env, h.irdy, h.owner, h.dir⟩

/-- DR5, DR3, RB1 and RB2. -/
theorem StreamsOn.run_read (h : StreamsOn u) (n : Nat) : Sys2Proof.core.run (n + 4) u =
    Sys2Proof.core.run n (streamAt (u.trace ++ [.sampled u.pdata]) u.itkn .readyAsserted [.rb3, .dr4] u) := by
  obtain ⟨hrun, hseq, henv, hirdy, howner, hdir⟩ := h
  have htest := stepDr5_of_ready (s := { u with seq := [] }) hirdy
  have hread : stepRb2 { u with ifsm := .readyAsserted, seq := [.dr4] } =
      streamAt (u.trace ++ [.sampled u.pdata]) u.itkn .readyAsserted [.rb3, .dr4] u := by
    rw [stepRb2_of_peer (by simp [peerOnBus, howner, hdir])]
    rfl
  calc Sys2Proof.core.run (n + 4) u
    _ = Sys2Proof.core.run (n + 3) { u with seq := [.dr3] } :=
      run_busy henv hrun hseq (congrArg Host.Outcome.next htest)
    _ = Sys2Proof.core.run (n + 2) { u with seq := [.rb1, .dr4] } := run_busy henv hrun rfl rfl
    _ = Sys2Proof.core.run (n + 1) { u with ifsm := .readyAsserted, seq := [.rb2, .dr4] } :=
      run_busy henv hrun rfl rfl
    _ = _ := run_busy henv hrun rfl (congrArg Host.Outcome.next hread)

/-- RB3 to RB6, and DR4. -/
theorem StreamsOn.run_answer (h : StreamsOn u) (tr : List TraceEvent) (n : Nat) :
    Sys2Proof.core.run (n + 5) (streamAt tr u.itkn .readyAsserted [.rb3, .dr4] u) =
      Sys2Proof.core.run n (Machine.streamed tr u) := by
  obtain ⟨hrun, -, henv, -, -, -⟩ := h
  calc Sys2Proof.core.run (n + 5) (streamAt tr u.itkn .readyAsserted [.rb3, .dr4] u)
    _ = Sys2Proof.core.run (n + 4) (streamAt (tr ++ [.asserted .itkn]) .active .acknowledged [.rb4, .dr4] u) :=
      run_busy henv hrun rfl rfl
    _ = Sys2Proof.core.run (n + 3) (streamAt (tr ++ [.asserted .itkn]) .active .acknowledged [.rb5, .dr4] u) :=
      run_busy henv hrun rfl rfl
    _ = Sys2Proof.core.run (n + 2)
          (streamAt (tr ++ [.asserted .itkn] ++ [.deasserted .itkn]) .inactive .acknowledged [.rb6, .dr4] u) :=
      run_busy henv hrun rfl rfl
    _ = Sys2Proof.core.run (n + 1)
          (streamAt (tr ++ [.asserted .itkn] ++ [.deasserted .itkn]) .inactive .idle [.dr4] u) :=
      run_busy henv hrun rfl rfl
    _ = Sys2Proof.core.run n (Machine.streamed tr u) := run_busy henv hrun rfl rfl

/-- Nine steps come round from DR5 to DR5 (R191). -/
theorem StreamsOn.run_nine (h : StreamsOn u) (n : Nat) :
    Sys2Proof.core.run (n + 9) u = Sys2Proof.core.run n (Machine.streamed (u.trace ++ [.sampled u.pdata]) u) :=
  (h.run_read (n + 5)).trans (h.run_answer _ n)

/-- Any number of turns of nine steps reads as many bytes more, each the peer's. -/
theorem StreamsOn.run_turns (h : StreamsOn u) (n : Nat) :
    ∃ t, Sys2Proof.core.run (9 * n) u = .next t ∧ t.run = .busy ∧ t.drainCnt = u.drainCnt + n
      ∧ t.inbuf = u.inbuf ++ List.replicate n u.pdata := by
  induction n generalizing u with
  | zero => exact ⟨u, rfl, h.run, rfl, (List.append_nil _).symm⟩
  | succ n ih =>
    obtain ⟨t, ht, hrun, hcount, hbuf⟩ := ih (h.streamed (u.trace ++ [.sampled u.pdata]))
    refine ⟨t, (h.run_nine (9 * n)).trans ht, hrun, hcount.trans (Nat.add_right_comm ..), hbuf.trans ?_⟩
    exact List.append_assoc ..

/-- Settles O37: DRAIN comes to its test with the peer done, and every nine steps it is there again. -/
theorem drainOfAnEndlessStreamNeverEnds : Obligations.DrainOfAnEndlessStreamNeverEnds := by
  intro s hready howner hirdy henv
  have hp : peerOnly s = true := by rw [peerOnly, henv]; rfl
  obtain ⟨p, h⟩ := drainProgress_zero hp howner (by rw [peerAfter_nil henv]; exact hirdy)
  obtain ⟨-, hpirdy, hpdata, hpenv⟩ := h.same
  rw [peerAfter_nil henv] at hpirdy hpdata hpenv
  have hstreams : StreamsOn (beside p (drainedTo 0 s)) := ⟨rfl, rfl, hpenv.trans henv, hpirdy.trans hirdy, rfl, rfl⟩
  have hawaits : Awaits (beside p (drainedTo 0 s)) := ⟨.dr5, [], rfl, hstreams.irdy⟩
  have hleft := leftToEnv_of_awaits hstreams.env hawaits
  refine ⟨_, exec_of_turns (i := .drain) hready hp h.turns (.inr hleft), fun n => ?_⟩
  obtain ⟨t, ht, hrun, hcount, hbuf⟩ := hstreams.run_turns n
  have hbyte : byteOfDrain 0 s = s.pdata := by rw [byteOfDrain, peerAfter_nil henv]
  refine ⟨t, ht, hrun, hcount.trans ?_, hbuf.trans ?_⟩
  · exact Nat.add_comm 1 n
  · change s.inbuf ++ [byteOfDrain 0 s] ++ List.replicate n p.pdata = _
    rw [hbyte, hpdata, List.append_assoc]
    rfl

end Sys2Proof.Machine
end

section
/-! Exceptions (spec 60_exceptions.md): an error raised at a command's first turn (R202, R209, R210), CANCEL in full (R215,
R217), and what stands while the engine is `Halted` (R218). -/

namespace Sys2Proof.Machine

variable {s t u : State} {l : Label} {rest : List Label} {c : Cause} {w : CmdWord} {b : Byte}

/-! ### An error at the first turn -/

/-- A command whose first micro-step raises an error: the error on record, everything else as the due events left it
(R202). -/
theorem runCommand_of_raise (hready : s.run = .ready) (hp : peerOnly s = true)
    (hmicro : micro l (beside (peerAfter 1 s) (accept w rest s)) =
      .next (raiseError c (beside (peerAfter 1 s) (accept w rest s))))
    (hl : l.neverWaits = true := by rfl) :
    runCommand w (l :: rest) s = .next { peerAfter 1 s with
      cur := w, res := c.resCode, errstat := setErrBit c (peerAfter 1 s).errstat, run := .ready, seq := [] } := by
  have hturn : microStep (accept w (l :: rest) s) = .next (raiseError c (beside (peerAfter 1 s) (accept w rest s))) :=
    (microStep_of_letEnvAct (letEnvAct_beside (accept w (l :: rest) s) hp)).trans
      ((engineTurn_at rfl rfl).trans hmicro)
  have hlook : hostLooks (accept w (l :: rest) s) = false := hostLooks_peerOnly hp
  have hfuel : turnsFor s = (turnsFor s - 1) + 1 := by unfold turnsFor; omega
  rw [runCommand, if_pos hready, hfuel, runFor_turn rfl (leftToEnv_of_neverWaits hl rfl) hlook hturn, runFor_ended (by simp),
    peerAfter_eq_beside 1 hp]
  rfl

theorem acceptWord_of_illegal (h : ∀ i, decode w ≠ .ok i) : acceptWord w s = runIllegal w s := by
  unfold acceptWord
  split
  · next i hi => exact absurd hi (h i)
  · rfl

/-- Settles O3: an illegal word's one micro-step raises `IllegalCommand`. -/
theorem illegalWordIsOnlyRecorded : Obligations.IllegalWordIsOnlyRecorded := by
  intro s w hready hp hillegal
  refine ⟨_, letEnvAct_eq_peerAfter hp, ?_⟩
  rw [acceptWord_of_illegal hillegal]
  exact runCommand_of_raise (c := .illegalCommand) hready hp rfl

theorem stepSb1_of_notHeld (h : ¬ (s.owner = .hostOutput ∧ s.dir = .output)) :
    stepSb1 b s = raiseError .precondition s := if_neg h

theorem stepRecv_of_broken (h : ¬ (s.owner = .peerInput ∧ s.dir = .input) ∨ s.irdy = .inactive) :
    stepRecv s = raiseError .precondition s := by
  unfold stepRecv
  split
  · rfl
  · next hheld => exact if_pos (h.resolve_left hheld)

theorem micro_stratack_of_switched (h : s.strat = .acknowledged) :
    micro .stratack s = .next (raiseError .precondition s) := by
  rw [micro_stratack, if_pos h]

/-- Settles O31: each command tests its precondition at its first turn, and raises there. -/
theorem brokenPreconditionsAreRecorded : Obligations.BrokenPreconditionsAreRecorded := by
  intro s hready hp
  have hsend {w : CmdWord} {b : Byte} {rest : List Label} (h : ¬ (s.owner = .hostOutput ∧ s.dir = .output)) :=
    runCommand_of_raise (w := w) (l := .sb1 b) (rest := rest) hready hp (congrArg Host.Outcome.next (stepSb1_of_notHeld h))
  refine ⟨_, letEnvAct_eq_peerAfter hp, fun h => ⟨fun _ => hsend h, fun _ => hsend h⟩, fun h => ?_, fun h => ?_⟩
  · exact runCommand_of_raise (l := .recv) hready hp (congrArg Host.Outcome.next (stepRecv_of_broken h))
  · exact runCommand_of_raise hready hp (micro_stratack_of_switched h)

/-! ### CANCEL -/

/-- The event by which CANCEL takes back an owner's chip-select. -/
def chipSelectDropped : Owner → List TraceEvent
  | .hostOutput => [.deasserted .csho]
  | .peerInput => [.deasserted .cspi]
  | .none => []

/-- The other chip-select was inactive already. -/
theorem dropChipSelect_eq {o : Owner} (howner : s.owner = o) (hs : arbiterOk s = true) : dropChipSelect s =
    { s with csho := .inactive, cspi := .inactive, trace := s.trace ++ chipSelectDropped o } := by
  cases o with
  | none =>
    obtain ⟨⟨-, hcsho⟩, hcspi⟩ := (arbiterOk_none howner).1 hs
    calc dropChipSelect s = s := by rw [dropChipSelect, howner]
      _ = { s with csho := s.csho, cspi := s.cspi, trace := s.trace ++ [] } := by rw [List.append_nil]
      _ = _ := by rw [hcsho, hcspi, chipSelectDropped]
  | hostOutput =>
    obtain ⟨-, hcspi⟩ := (arbiterOk_hostOutput howner).1 hs
    calc dropChipSelect s = deassertLine .csho s := by rw [dropChipSelect, howner]
      _ = { s with csho := .inactive, cspi := s.cspi, trace := s.trace ++ [.deasserted .csho] } := rfl
      _ = _ := by rw [hcspi, chipSelectDropped]
  | peerInput =>
    obtain ⟨⟨-, hcsho⟩, -⟩ := (arbiterOk_peerInput howner).1 hs
    calc dropChipSelect s = deassertLine .cspi s := by rw [dropChipSelect, howner]
      _ = { s with csho := s.csho, cspi := .inactive, trace := s.trace ++ [.deasserted .cspi] } := rfl
      _ = _ := by rw [hcsho, chipSelectDropped]

theorem setDir_eq (d : Dir) (s : State) : setDir d s =
    { s with dir := d, trace := s.trace ++ if s.dir = d then [] else [.direction d] } := by
  unfold setDir
  split
  · next h => rw [List.append_nil, ← h]
  · rfl

/-- The deassertion in full where `v` is the level the line has. -/
theorem deassertIfActive_eq {line : EngineLine} {v : Level} (h : setLine line v s = s) : deassertIfActive line v s =
    { setLine line .inactive s with trace := s.trace ++ if v = .active then [.deasserted line] else [] } := by
  cases v with
  | inactive =>
    change s = { setLine line .inactive s with trace := s.trace ++ [] }
    rw [h, List.append_nil]
  | active =>
    rw [← setLine_trace line .inactive s]
    rfl

/-- CANCEL in full (R215), the bus being consistent. -/
theorem cancelNow_eq (hs : arbiterOk s = true) : cancelNow s = { s with
    owner := .none, dir := .input, csho := .inactive, cspi := .inactive, ordy := .inactive, itkn := .inactive
    ofsm := .idle, ifsm := .idle, ackEdge := false, rdyEdge := false, seq := []
    res := Cause.interrupted.resCode, errstat := setErrBit .interrupted s.errstat, run := .halted
    trace := s.trace ++ chipSelectDropped s.owner
      ++ (if s.dir = .input then [] else [.direction .input])
      ++ (if s.ordy = .active then [.deasserted .ordy] else [])
      ++ (if s.itkn = .active then [.deasserted .itkn] else []) } := by
  rw [cancelNow, dropChipSelect_eq rfl hs, setDir_eq, deassertIfActive_eq (line := .ordy),
    deassertIfActive_eq (line := .itkn)] <;> rfl

theorem cancel_of_halted (h : s.run = .halted) : cancel s = s := if_pos h

/-- Settles O49: each part of the clean-up in the source's order, and in `Halted` none of it. -/
theorem cancelCleansUpAndHalts : Obligations.CancelCleansUpAndHalts := by
  intro s
  refine ⟨fun hrun hs => congrArg Host.Outcome.next ?_, fun hrun => congrArg Host.Outcome.next (cancel_of_halted hrun)⟩
  rw [cancel_of_not_halted hrun, cancelNow_eq (s := emit .cancelled s) hs]
  rfl

/-! ### `Halted` -/

/-- From `s` to `t` the engine stands: only what the peer and the host move moved, the edge latches, and the schedule. -/
def EngineStands (s t : State) : Prop :=
  t = { s with
    otkn := t.otkn, irdy := t.irdy, pdata := t.pdata, ackEdge := t.ackEdge, rdyEdge := t.rdyEdge
    pay := t.pay, plen := t.plen, host := t.host, trace := t.trace, env := t.env }

theorem EngineStands.trans (h : EngineStands s t) (h' : EngineStands t u) : EngineStands s u :=
  Eq.trans h' (by rw [h])

theorem EngineStands.run (h : EngineStands s t) : t.run = s.run := by rw [h]

/-- In `Halted` no event but reset reaches the engine (R217, R218). -/
theorem applyEvent_halted {e : Event} (he : e ≠ .reset) (hrun : s.run = .halted) (h : applyEvent e s = .next t) :
    EngineStands s t := by
  cases e with
  | otkn v => cases h; unfold driveOtkn; split <;> rfl
  | irdy v => cases h; unfold driveIrdy; split <;> rfl
  | pdata b => cases h; rfl
  | cancel => cases h; rw [cancel_of_halted hrun]; rfl
  | reset => exact absurd rfl he
  | supply bs => obtain ⟨rfl, -⟩ := supplyNow_eq_next h; rfl
  | hostReads => cases h; rfl
  | heartbeat => cases h; rfl

theorem reset_not_mem_due (h : noResetDue s = true) : .reset ∉ due s := by
  unfold noResetDue at h
  unfold due
  split at h
  · next henv => simp [henv]
  · next es rest henv => simpa [henv] using h

theorem letEnvAct_halted (hrun : s.run = .halted) (hno : noResetDue s = true) (h : letEnvAct s = .next t) :
    EngineStands s t := by
  rw [letEnvAct_eq_due] at h
  refine applyEvents_keeps (P := EngineStands s) (fun e he u v hu huv => ?_) { s with env := s.env.tail } t rfl h
  exact hu.trans (applyEvent_halted (fun hreset => reset_not_mem_due hno (hreset ▸ he)) (hu.run.trans hrun) huv)

/-- In `Halted` the host supplies payloads and no more (R218). -/
theorem haltedTurn_engineStands (h : haltedTurn s = .next t) : EngineStands s t := by
  unfold haltedTurn at h
  split at h
  · cases h; rfl
  · cases h; rfl
  · split at h <;> cases h
    rfl

theorem step_halted (hrun : s.run = .halted) (hno : noResetDue s = true) (h : step s = .next t) : EngineStands s t := by
  unfold step at h
  split at h
  · exact letEnvAct_halted hrun hno h
  · obtain ⟨u, hu, hturn⟩ := andThen_eq_next.1 h
    have hstands := letEnvAct_halted hrun hno hu
    rw [turn, hstands.run, hrun] at hturn
    exact hstands.trans (haltedTurn_engineStands hturn)

/-- Settles O50: of a step from `Halted` only what is the peer's, the host's or a latch's is left to move. -/
theorem haltedIsLeftOnlyByReset : Obligations.HaltedIsLeftOnlyByReset := by
  intro s t hrun hno h
  rw [step_halted hrun hno h]
  exact ⟨hrun, rfl, rfl, rfl, rfl, rfl, rfl, rfl, rfl, rfl, rfl, rfl, rfl, rfl, rfl, rfl, rfl, rfl, rfl, rfl, rfl, rfl, rfl,
    rfl, rfl⟩

end Sys2Proof.Machine
end

section
/-! The reset input (spec 70_reset_and_hazards.md R240, R242): what it makes of any state. -/

namespace Sys2Proof.Machine

/-- What the reset input keeps of a state (R242) is none of the engine's, so R47's table reads it as the reset state. -/
theorem engineAtReset_resetEngine_iff (s : State) : engineAtReset (resetEngine s) ↔ engineAtReset State.reset := Iff.rfl

/-- The reset input leaves the peer's variables alone (R242). -/
theorem resetEngine_peer (s : State) :
    (resetEngine s).otkn = s.otkn ∧ (resetEngine s).irdy = s.irdy ∧ (resetEngine s).pdata = s.pdata :=
  ⟨rfl, rfl, rfl⟩

/-- Settles O12: the reset event is `resetEngine` in every run state, whose engine part is that of the reset state. -/
theorem resetInputRestoresTheEngine : Obligations.ResetInputRestoresTheEngine := fun s =>
  ⟨resetEngine s, rfl, (engineAtReset_resetEngine_iff s).2 resetStateHasTheSpecsValues, resetEngine_peer s⟩

end Sys2Proof.Machine
end

section
/-! Words written out from the encoding tables (spec 30_encoding.md sections 3 and 6; 95_test_vectors.md section 2.3). -/

namespace Sys2Proof

variable {w mask pattern : CmdWord} {i : Instr} {o : Owner}

/-- A claim in CLAIM's shape is refused by name when its owner and its direction are crossed (R93). -/
theorem decodeClaim_of_crossed (hshape : hasShape w 0xF1FFFFFF#32 0x10000000#32 = true)
    (ho : ownerOfField (ownField w) = some o) (hcrossed : legalClaim o (dirOfField (dirField w)) = false) :
    decodeClaim w = .error .crossedClaim := by
  simp [decodeClaim, hshape, ho, hcrossed]

theorem ifShape_of_not_shape (h : hasShape w mask pattern = false) : ifShape w mask pattern i = .error .strayBits := by
  simp [ifShape, h]

/-- Settles O4: a legal word is a row of R87's list; the crossed claim fails the pairing of its fields (R93), and the owner
bit of the last word breaks the shape of SENDB's row (R85). -/
theorem wordsOfTheTableDecode : Obligations.WordsOfTheTableDecode := by
  have legal := fun w i => (legalWordsAndTheirCommands w i).2
  have crossed : decodeClaim 0x1A000000#32 = .error .crossedClaim := decodeClaim_of_crossed (o := .peerInput) rfl rfl rfl
  have stray : ifShape 0x34000048#32 0xFFFFFF00#32 0x30000000#32 (.sendb 0x48#8) = .error .strayBits :=
    ifShape_of_not_shape rfl
  exact ⟨legal _ _ rfl, legal _ _ rfl, legal _ _ rfl, legal _ _ rfl, legal _ _ rfl, legal _ _ rfl, crossed, stray⟩

end Sys2Proof
end
